-- ==== Sys2Proof/Word.lean ====
section
/-! DEFINITION. The plain data the block is made of: bit strings (00_scope.md R12), indices and symbols, and the entries of
the arrays (10_state.md R36, R39, R41). -/

namespace Sys2Proof

/-- A bit string, first bit first (R12). -/
abbrev Bits := List Bool

/-- A node index, `IDX_W` = 10 bits (R8, R21). -/
abbrev Idx := BitVec 10

/-- A symbol field, `SYMF_W` = 9 bits (R7, R100). -/
abbrev Sym := BitVec 9

/-- The explicit tag of a node (R36, 92_eei_decisions.md D23): bit 1 is a leaf, bit 0 is an internal node. -/
inductive Kind where
  | internal
  | leaf
  deriving DecidableEq, Repr, Inhabited

/-- One record of `NODE` (R36). `weight` is `W_W` bits wide and held as an exact number (R136). -/
structure NodeEntry where
  kind   : Kind
  sym    : Sym
  weight : Nat
  left   : Idx
  right  : Idx
  deriving DecidableEq, Repr, Inhabited

/-- One record of `CODE` (R39): the code is the low `len` bits of `val`. -/
structure CodeEntry where
  valid : Bool
  len   : BitVec 9
  val   : BitVec 256
  deriving DecidableEq, Repr, Inhabited

/-- One entry of `STK` (R41): a node index, and whether its left subtree is done. -/
structure Frame where
  idx      : Idx
  leftDone : Bool
  deriving DecidableEq, Repr, Inhabited

/-- The scratch registers (R25) and `STK` (R41); `SP` is the length of `stk`. -/
structure Scratch where
  stk  : List Frame
  path : BitVec 256
  plen : BitVec 9
  sym  : Sym
  acc  : Nat
  deriving DecidableEq, Repr, Inhabited

end Sys2Proof
end

