-- ==== Sys2Proof/Config.lean ====
section
/-! DEFINITION. The constants of 00_scope.md R7 and R8, and the free values: constants without a body, so that nothing can be
proved of the value they stand for. -/

namespace Sys2Proof.Config

/-- `NSYM` (R7): symbols 0 to 256. -/
abbrev nsym : Nat := 257

/-- `EOS_SYM` (R7): the end-of-stream sentinel. -/
abbrev eosSym : Nat := 256

/-- `MAGIC` (R7). -/
abbrev magic : Nat := 0xFACE8201

/-- `MAGIC_W` (R7). -/
abbrev magicW : Nat := 32

/-- `SYMF_W` (R7): width of the symbol field of a leaf token. -/
abbrev symfW : Nat := 9

/-- `PORT_MAXN` and `SINK_MAXN` (R7, R8): the widest transfer of either port. -/
abbrev portMaxN : Nat := 32

/-- `NODE_CAP` (R8). -/
abbrev nodeCap : Nat := 513

/-- `STK_CAP` (R8, R41): entries of the traversal stack, one fewer than the nodes. -/
abbrev stkCap : Nat := 512

/-- `MAXLEN` (R8): the longest code. -/
abbrev maxLen : Nat := 256

/-- `FILL_SYM` (R8): the symbol of the filler leaf. -/
abbrev fillSym : Sym := 0

/-- The default of `CNT_W` (R8). The parameter itself is `State.cntW`. -/
abbrev defaultCntW : Nat := 32

/-- `W_W` (R8, R136): the width of a node weight. -/
abbrev weightW (cntW : Nat) : Nat := cntW + 9

/-- FREE VALUE. What the scratch registers hold after an operation that uses them, and after a reset (10_state.md R44, R45):
unspecified. Log entry 7. -/
opaque freeScratch : Nat → Scratch

/-- FREE VALUE. What `ROOT` and `CUR` hold after a reset (R45): unspecified. Log entry 7. -/
opaque freeIdx : Nat → Idx

/-- FREE VALUE. What `FREQ` holds after a reset (R45): unspecified. Log entry 7. -/
opaque freeFreq : Nat → Vector Nat 257

/-- FREE VALUE. What `NODE` holds after a reset (R45): unspecified. Log entry 7. -/
opaque freeNode : Nat → Vector NodeEntry 513

/-- FREE VALUE. What `CODE` holds after a reset (R45): unspecified. Log entry 7. -/
opaque freeCode : Nat → Vector CodeEntry 257

/-- FREE VALUE. What a host read of `CMD` returns (R33): nothing a model may rely on. Log entry 7. -/
opaque freeRead : Nat → BitVec 8

end Sys2Proof.Config
end

