-- ==== Sys2Proof/Syntax.lean ====
section
/-! DEFINITION. The rows of spec/opcode_table.json: twelve commands (30_encoding.md R92) and the three wire tokens of fixed
pattern (R94 to R96). -/

namespace Sys2Proof

/-- One constructor per row of the opcode table. No command has an operand (R91). -/
inductive Instr where
  /-- `0x0` CLEAR (R200). -/
  | clear
  /-- `0x1` COUNT (R120). -/
  | count
  /-- `0x2` BUILD (R130). -/
  | build
  /-- `0x3` GENCODE (R150). -/
  | gencode
  /-- `0x4` WRMAGIC (R160). -/
  | wrmagic
  /-- `0x5` WRHDR (R161). -/
  | wrhdr
  /-- `0x6` ENCODE (R180). -/
  | encode
  /-- `0x7` RDMAGIC (R163). -/
  | rdmagic
  /-- `0x8` RDHDR (R164). -/
  | rdhdr
  /-- `0x9` DECODE (R190). -/
  | decode
  /-- `0xA` COMPRESS (R201). -/
  | compress
  /-- `0xB` DECOMPRESS (R202). -/
  | decompress
  /-- W.MAGIC (R94). -/
  | wMagic
  /-- W.INODE (R95). -/
  | wInode
  /-- W.LEAF (R96) with the symbol of its 9-bit field (R100). -/
  | wLeaf (sym : Nat)
  deriving DecidableEq, Repr

end Sys2Proof
end

