-- ==== Sys2Proof/WellFormed.lean ====
section
/-! DEFINITION. Which instructions have an encoding: all, but for a W.LEAF whose symbol does not fit its field. -/

namespace Sys2Proof

/-- R96, R100: the symbol of a W.LEAF is an unsigned 9-bit number, 0 to 511; nothing else restricts an instruction (R91,
R105). -/
def wellFormed : Instr → Bool
  | .wLeaf sym => decide (sym < 2 ^ Config.symfW)
  | .clear | .count | .build | .gencode | .wrmagic | .wrhdr | .encode | .rdmagic | .rdhdr | .decode | .compress
  | .decompress | .wMagic | .wInode => true

end Sys2Proof
end

