-- ==== Sys2Proof/Decode.lean ====
section
/-! DEFINITION. Bit strings as numbers (00_scope.md R12), and the two decoders of 30_encoding.md R90: commands from the 4-bit
value written to `CMD`, wire tokens from the bits of the source stream. -/

namespace Sys2Proof

/-- `int(p)` (R12): the first bit is the most significant; `int(ε) = 0`. -/
def intOf (p : Bits) : Nat := p.foldl (fun n b => 2 * n + b.toNat) 0

/-- `bits_n(v)` (R12): the `n`-bit string of the low `n` bits of `v`, most significant first. -/
def bitsOf : Nat → Nat → Bits
  | 0, _ => []
  | n + 1, v => v.testBit n :: bitsOf n v

/-- What a decoder is given (R90): the value written to `CMD`, or the bits of one wire token. -/
inductive Encoded where
  | cmd (op : BitVec 4)
  | wire (bits : Bits)
  deriving DecidableEq, Repr

/-- Why a decoder takes no instruction from what it is given. -/
inductive Reject where
  /-- Command codes `0xC` to `0xF` (R104). -/
  | reservedCommand (op : BitVec 4)
  /-- 32 bits other than the magic (R106). -/
  | notMagic (bits : Bits)
  /-- Bits that are no whole token: neither 1, 10 nor 32 bits of a known pattern (R94 to R96). -/
  | notAToken (bits : Bits)
  deriving DecidableEq, Repr

/-- The operation codes of R92. All four bits are decoded. -/
def decodeCmd (op : BitVec 4) : Except Reject Instr :=
  match op.toNat with
  | 0x0 => .ok .clear
  | 0x1 => .ok .count
  | 0x2 => .ok .build
  | 0x3 => .ok .gencode
  | 0x4 => .ok .wrmagic
  | 0x5 => .ok .wrhdr
  | 0x6 => .ok .encode
  | 0x7 => .ok .rdmagic
  | 0x8 => .ok .rdhdr
  | 0x9 => .ok .decode
  | 0xA => .ok .compress
  | 0xB => .ok .decompress
  | _ => .error (.reservedCommand op)

/-- How many bits a tree token has, told by its first bit (R103): `0` is 1 bit, `1` is 10 bits. -/
def treeTokenLength (flag : Bool) : Nat := if flag then 1 + Config.symfW else 1

/-- The wire tokens of fixed pattern: `0` (R95), `1` and nine bits (R96), the 32 bits of the magic (R94). -/
def decodeWire (bits : Bits) : Except Reject Instr :=
  if bits = [false] then .ok .wInode
  else if bits.length = Config.magicW then
    if bits = bitsOf Config.magicW Config.magic then .ok .wMagic else .error (.notMagic bits)
  else
    match bits with
    | true :: field => if field.length = Config.symfW then .ok (.wLeaf (intOf field)) else .error (.notAToken bits)
    | _ => .error (.notAToken bits)

/-- Decoding is total; what it does not take it rejects by name. -/
def decode : Encoded → Except Reject Instr
  | .cmd op => decodeCmd op
  | .wire bits => decodeWire bits

/-- The encoding of each row (R92, R94 to R96). -/
def encode : Instr → Encoded
  | .clear => .cmd 0x0
  | .count => .cmd 0x1
  | .build => .cmd 0x2
  | .gencode => .cmd 0x3
  | .wrmagic => .cmd 0x4
  | .wrhdr => .cmd 0x5
  | .encode => .cmd 0x6
  | .rdmagic => .cmd 0x7
  | .rdhdr => .cmd 0x8
  | .decode => .cmd 0x9
  | .compress => .cmd 0xA
  | .decompress => .cmd 0xB
  | .wMagic => .wire (bitsOf Config.magicW Config.magic)
  | .wInode => .wire [false]
  | .wLeaf sym => .wire (true :: bitsOf Config.symfW sym)

/-- The width in bits of an encoding (the opcode table's "width"). -/
def Encoded.width : Encoded → Nat
  | .cmd _ => 4
  | .wire bits => bits.length

/-- What the decoder is given for an opcode-table row of `nbits` bits (whole bytes, or the row's own width) whose bits are the
number `w`: a 4-bit row is a command, a row of 1, 10 or 32 bits is a wire token, first stream bit most significant (R110). A
row of one byte is read as a command, so that W.INODE is asked for by its own width, 1. Log entry 10. -/
def tableEncoded (nbits w : Nat) : Option Encoded :=
  if nbits = 4 ∨ nbits = 8 then (if w < 2 ^ 4 then some (.cmd (BitVec.ofNat 4 w)) else none)
  else if nbits = 1 then (if w < 2 ^ 1 then some (.wire (bitsOf 1 w)) else none)
  else if nbits = 10 ∨ nbits = 16 then (if w < 2 ^ 10 then some (.wire (bitsOf 10 w)) else none)
  else if nbits = 32 then some (.wire (bitsOf 32 w))
  else none

/-- The instruction the decoder reads from the bits `w` of a table row of `nbits` bits. -/
def decodeTableWord (nbits w : Nat) : Option Instr :=
  match tableEncoded nbits w with
  | none => none
  | some e =>
    match decode e with
    | .ok i => some i
    | .error _ => none

end Sys2Proof
end

