-- ==== Sys2Proof/Machine/State.lean ====
section
/-! DEFINITION. The state of the block and of its two ports (10_state.md, 20_memory.md R60, R63), what the host has still to
do (70_reset_and_hazards.md R277), the reasons the model itself can stop, and the state right after reset (R45). -/

namespace Sys2Proof.Machine

/-- The payload decoder's states (R30, R191); the value 3 of the field never occurs (U14). -/
inductive DState where
  | atRoot
  | descending
  | terminated
  deriving DecidableEq, Repr, Inhabited

/-- The fault kinds of R221, in the order of their codes 1 to 9. -/
inductive ErrKind where
  | illegalHeader
  | malformedTree
  | malformedPayload
  | countOverflow
  | treeOverflow
  | noCode
  | degenerateTree
  | sequence
  | illegalCmd
  deriving DecidableEq, Repr, Inhabited

/-- The fields of `STATUS` (R30). The host reads the whole register (`Status.word`); bit 7 is reserved and has no storage. -/
structure Status where
  freqValid : Bool
  treeValid : Bool
  treeBuilt : Bool
  codeValid : Bool
  dstate    : DState
  faulted   : Bool
  deriving DecidableEq, Repr, Inhabited

/-- Every field 0 (R45, R200). -/
def Status.zero : Status :=
  { freqValid := false, treeValid := false, treeBuilt := false, codeValid := false, dstate := .atRoot, faulted := false }

/-- The source port (R60): `IN`, `POS`, `EOS`; and what the underlying input delivers after the next rewind, when that is not what
it delivered before (70_reset_and_hazards.md R266). `none`: the host keeps the input unchanged. -/
structure Source where
  bits   : Bits
  pos    : Nat
  eos    : Bool
  rescan : Option Bits := none
  deriving DecidableEq, Repr, Inhabited

/-- The sink port (R63): `OUT`, `CLOSED`. -/
structure Sink where
  out    : Bits
  closed : Bool
  deriving DecidableEq, Repr, Inhabited

/-- A port transaction of the block (R14, R71). `none` is the token `NODATA`. -/
inductive PortEvent where
  | srcRead (n : Nat) (got : Option Nat)
  | srcReset
  | sinkWrite (n v : Nat)
  deriving DecidableEq, Repr

/-- An operation in progress that waits for its next wire token (R27, R28): none, RDMAGIC, or RDHDR. -/
inductive Activity where
  | idle
  | magic
  | tree
  deriving DecidableEq, Repr, Inhabited

/-- The steps the macro sequencer can hold (R109). -/
inductive MacroStep where
  | count
  | build
  | gencode
  | wrmagic
  | wrhdr
  | encode
  | rdmagic
  | rdhdr
  | decode
  deriving DecidableEq, Repr

/-- What the host does (R277, R108), and reset (R260). The pad bits of a close are the host's free draw (R65, U2). By `changeInput`
the host breaks its duty of R266: another input stands behind the bound source after the next rewind (U17). -/
inductive HostAction where
  | bindSource (bits : Bits)
  | bindSink
  | changeInput (bits : Bits)
  | writeCmd (op : BitVec 4)
  | closeSink (pad : BitVec 7)
  | readStatus
  | readErr
  | readCmd
  | reset
  deriving DecidableEq, Repr

/-- The state. INVENTORY.md lists each field with the rule that names it. -/
structure State where
  cntW     : Nat
  root     : Idx
  nalloc   : Idx
  cur      : Idx
  status   : Status
  err      : Option ErrKind
  freq     : Vector Nat 257
  node     : Vector NodeEntry 513
  pq       : List Idx
  code     : Vector CodeEntry 257
  scratch  : Scratch
  activity : Activity
  seq      : List MacroStep
  source   : Option Source
  sink     : Option Sink
  host     : List HostAction
  readout  : BitVec 8
  trace    : List PortEvent
  draws    : Nat
  deriving DecidableEq, Repr

/-- Why the model stops where the spec has no move. Every one is SAFE: the model stops, and no well-formed state (10_state.md
R37, R40, R46) reaches one. -/
inductive Fault where
  /-- A walk or the decoder would read an entry of `NODE` no operation has written (R46: "a rule that would read it is a fault
  of the model"). Raised by GENCODE, WRHDR, DECODE. Safe. -/
  | unwrittenNode
  /-- A walk went deeper than `NODE_CAP`: the node array holds no finite tree, against R37. Raised by GENCODE, WRHDR. Safe. -/
  | endlessTree
  /-- A leaf's symbol or path does not fit `CODE`, against R37 and R153. Raised by GENCODE. Safe. -/
  | codeTableRange
  /-- ENCODE would emit the entry of the sentinel while it holds no code, against R155. Safe. -/
  | unwrittenCode
  /-- `removeMin` of an empty `PQ`, against R135. Raised by BUILD. Safe. -/
  | emptyQueue
  /-- A loop of an operation passed the bound R276 gives it; never reached. Raised by COUNT, BUILD, ENCODE, RDHDR, DECODE.
  Safe. -/
  | loopBound
  deriving DecidableEq, Repr

/-- What the model gives no meaning. Every one is SAFE: the model stops. -/
inductive Refusal where
  /-- An instruction without a meaning yet; no arm of `exec` answers it. Safe. -/
  | notModelled (mnemonic : String)
  /-- A source transaction with no source bound (R264: "it is refused, not given a value"). Raised by every operation that
  reads, and by the host's `changeInput`. Safe. -/
  | sourceUnbound
  /-- A sink transaction with no sink bound (R264). Raised by every operation that writes, and by the host's close. Safe. -/
  | sinkUnbound
  /-- A sink transaction after the host has closed the sink: `close()` "releases the resource" (R65). Raised as the one
  above. Safe. -/
  | sinkClosed
  /-- A transfer of no bits or of more than 32 (U15: "refuse"). Raised by the port operations; the block issues none. Safe. -/
  | transferWidth
  /-- A wire token given to a block in which no operation waits for it (R90: "no stream content is ever taken as a
  command"). Raised by the wire tokens. Safe. -/
  | tokenNotAwaited
  deriving DecidableEq, Repr

/-- The three outcomes of a step of this machine. -/
abbrev Outcome := Host.Outcome State Fault Refusal

/-- `PQN` (R24): how many entries `PQ` has. -/
def State.pqn (s : State) : BitVec 9 := BitVec.ofNat 9 s.pq.length

/-- `SP` (R25): how many entries `STK` has. -/
def State.sp (s : State) : BitVec 10 := BitVec.ofNat 10 s.scratch.stk.length

/-- The state right after reset (R45, R260): `STATUS`, `ERR`, `NALLOC` and `PQN` 0, no operation running. What R45 leaves
unspecified is 0 here (log entry 1), nothing is bound to the ports (log entry 2), `CNT_W` has its default (log entry 3). -/
def State.reset : State where
  cntW     := Config.defaultCntW
  root     := 0
  nalloc   := 0
  cur      := 0
  status   := Status.zero
  err      := none
  freq     := Vector.replicate 257 0
  node     := Vector.replicate 513 { kind := .internal, sym := 0, weight := 0, left := 0, right := 0 }
  pq       := []
  code     := Vector.replicate 257 { valid := false, len := 0, val := 0 }
  scratch  := { stk := [], path := 0, plen := 0, sym := 0, acc := 0 }
  activity := .idle
  seq      := []
  source   := none
  sink     := none
  host     := []
  readout  := 0
  trace    := []
  draws    := 0

end Sys2Proof.Machine
end

