-- ==== Sys2Proof/Machine/Flags.lean ====
section
/-! DEFINITION. The flags: the fields of `STATUS` each operation clears at its start and sets at its normal end
(46_control.md R205), and the words the host reads (10_state.md R30, R32). -/

namespace Sys2Proof.Machine

/-- The codes of R30 for `DSTATE`. -/
def DState.code : DState → BitVec 2
  | .atRoot => 0
  | .descending => 1
  | .terminated => 2

/-- The `STATUS` register as the host reads it (R30), bit 7 first. -/
def Status.word (st : Status) : BitVec 8 :=
  0#1 ++ BitVec.ofBool st.faulted ++ st.dstate.code ++ BitVec.ofBool st.codeValid ++ BitVec.ofBool st.treeBuilt
    ++ BitVec.ofBool st.treeValid ++ BitVec.ofBool st.freqValid

/-- The codes of R221. -/
def ErrKind.code : ErrKind → BitVec 4
  | .illegalHeader => 1
  | .malformedTree => 2
  | .malformedPayload => 3
  | .countOverflow => 4
  | .treeOverflow => 5
  | .noCode => 6
  | .degenerateTree => 7
  | .sequence => 8
  | .illegalCmd => 9

/-- The `ERR` register (R32): 0 when no fault is recorded. -/
def State.errWord (s : State) : BitVec 4 :=
  match s.err with
  | none => 0
  | some e => e.code

/-- COUNT at its start (R205). -/
def State.invalidateFreq (s : State) : State :=
  { s with status := { s.status with freqValid := false, treeValid := false, treeBuilt := false, codeValid := false } }

/-- BUILD and RDHDR at their start (R205). -/
def State.invalidateTree (s : State) : State :=
  { s with status := { s.status with treeValid := false, treeBuilt := false, codeValid := false } }

/-- GENCODE at its start (R205). -/
def State.invalidateCode (s : State) : State :=
  { s with status := { s.status with codeValid := false } }

/-- COUNT at its normal end (R205). -/
def State.validateFreq (s : State) : State :=
  { s with status := { s.status with freqValid := true } }

/-- BUILD at its normal end (R205). -/
def State.validateBuiltTree (s : State) : State :=
  { s with status := { s.status with treeValid := true, treeBuilt := true } }

/-- RDHDR at its normal end (R205); `TREE_BUILT` stays 0. -/
def State.validateReadTree (s : State) : State :=
  { s with status := { s.status with treeValid := true } }

/-- GENCODE at its normal end (R205). -/
def State.validateCode (s : State) : State :=
  { s with status := { s.status with codeValid := true } }

/-- A write of `STATUS.DSTATE`, by DECODE only (R30). -/
def State.setDState (d : DState) (s : State) : State :=
  { s with status := { s.status with dstate := d } }

end Sys2Proof.Machine
end

