-- ==== Sys2Proof/Machine/Operands.lean ====
section
/-! DEFINITION. Operand assembly (30_encoding.md R100 to R102): the symbol field, the decoded symbol, the code value and its
slices; and the packing of bytes into the bit streams (20_memory.md R67), which is the host's. -/

namespace Sys2Proof.Machine

/-- R100: the symbol field of a W.LEAF, 9 bits, stored whole. -/
def symField (sym : Nat) : Sym := BitVec.ofNat 9 sym

/-- R102, R39: a code held as length and value, `val = int(code)`. -/
def codeOf (path : Bits) : CodeEntry :=
  { valid := true, len := BitVec.ofNat 9 path.length, val := BitVec.ofNat 256 (intOf path) }

/-- R39: the bit string a code entry stands for, `bits_len(val)`. -/
def codeBits (c : CodeEntry) : Bits := bitsOf c.len.toNat c.val.toNat

/-- R181: `V[r-1 : r-32]`, the next 32 bits from the front of what is left of a code. -/
def frontPiece (r : Nat) (val : BitVec 256) : Nat := val.toNat / 2 ^ (r - 32) % 2 ^ 32

/-- R181: `V[r-1 : 0]`, the last 1 to 32 bits of a code. -/
def lastPiece (r : Nat) (val : BitVec 256) : Nat := val.toNat % 2 ^ r

/-- R67: the bits of a byte string, most significant bit of each byte first. -/
def bitsOfBytes (bytes : List (BitVec 8)) : Bits := bytes.flatMap fun b => bitsOf 8 b.toNat

end Sys2Proof.Machine
end

