-- ==== Sys2Proof/Machine/Ops.lean ====
section
/-! DEFINITION. The named operations the meanings are written in: sequencing, taking a fault and returning from one
(60_exceptions.md R230, R236), the arrays (10_state.md), the port primitives (20_memory.md R60 to R65). -/

namespace Sys2Proof.Machine

/-! ### Sequencing -/

/-- Go on with `f` from the next state; a stop stays a stop. -/
def andThen (o : Outcome) (f : State → Outcome) : Outcome :=
  match o with
  | .next s => f s
  | .fault r => .fault r
  | .refused r => .refused r

/-- R206: while `FAULTED = 1` a command is ignored: no state changes and no port transaction is issued. -/
def unlessFaulted (s : State) (f : State → Outcome) : Outcome :=
  if s.status.faulted then .next s else f s

/-! ### Faults -/

/-- `raise E` (R230), as one step: the first fault wins, `FAULTED` is set, the running operation and a containing macro end;
nothing else is saved or changed. -/
def raise (e : ErrKind) (s : State) : State :=
  { s with
    err := match s.err with
      | none => some e
      | some e₀ => some e₀
    status := { s.status with faulted := true }
    activity := .idle
    seq := [] }

/-- The return from a fault (R236), which is the command CLEAR (R200): `STATUS`, `ERR`, `NALLOC`, `PQN` to 0; the arrays keep
what they held and no port transaction is issued. `ROOT`, `CUR` and the scratch registers, which 10_state.md R45 calls unspecified
after CLEAR, keep what they held too: DESIGN CHOICE, log entry 20. -/
def returnFromFault (s : State) : State :=
  { s with status := Status.zero, err := none, nalloc := 0, pq := [] }

/-- `require c else raise E_SEQUENCE` (R204): the test is made before anything else. -/
def requireFlags (c : Bool) (s : State) (f : State → Outcome) : Outcome :=
  if c then f s else .next (raise .sequence s)

/-! ### Scratch -/

/-- A number cut to a register of `w` bits. -/
def cutTo (w n : Nat) : Nat := n % 2 ^ w

/-- Free contents of the scratch registers, in their sizes: at most `STK_CAP` entries on `STK` (R41), `ACC` of `W_W` bits (R25). The
other widths are those of the fields. -/
def freeScratchOf (cntW draw : Nat) : Scratch :=
  let x := Config.freeScratch draw
  { x with stk := x.stk.take Config.stkCap, acc := cutTo (Config.weightW cntW) x.acc }

/-- After an operation that uses them the scratch registers and `STK` are unspecified (R44): a free value (log entry 7). -/
def State.freeScratch (s : State) : State :=
  { s with scratch := freeScratchOf s.cntW s.draws, draws := s.draws + 1 }

/-- The end of an operation that uses scratch registers. -/
def releaseScratch (o : Outcome) : Outcome := andThen o fun s => .next s.freeScratch

/-! ### Arrays -/

/-- `FREQ[k]` (R35). -/
def State.freqAt (s : State) (k : Nat) : Nat := s.freq[k]?.getD 0

/-- `FREQ[k] <- n`. -/
def State.setFreq (k n : Nat) (s : State) : State := { s with freq := s.freq.setIfInBounds k n }

/-- `for s in 0..256: FREQ[s] <- 0`. -/
def State.zeroFreq (s : State) : State := { s with freq := Vector.replicate 257 0 }

/-- What stands in `NODE[i]`, written or not; an index past the array gives the entry of all zeros. -/
def State.nodeAt (s : State) (i : Idx) : NodeEntry :=
  s.node[i.toNat]?.getD { kind := .internal, sym := 0, weight := 0, left := 0, right := 0 }

/-- A read of `NODE[i]` by a walk or by the decoder (R46, R80): only entries below `NALLOC` have been written. -/
def State.readNode (s : State) (i : Idx) : Option NodeEntry :=
  if i.toNat < s.nalloc.toNat then s.node[i.toNat]? else none

/-- `NODE[i] <- e`. -/
def State.setNode (i : Idx) (e : NodeEntry) (s : State) : State := { s with node := s.node.setIfInBounds i.toNat e }

/-- A new node (R22, R131): write `NODE[NALLOC]` and count it. `upd` changes the fields the rule writes and keeps the
others. -/
def State.allocNode (upd : NodeEntry → NodeEntry) (s : State) : State :=
  { s.setNode s.nalloc (upd (s.nodeAt s.nalloc)) with nalloc := s.nalloc + 1 }

/-- `insert(i)` (R132). -/
def State.insertPq (i : Idx) (s : State) : State := { s with pq := s.pq ++ [i] }

/-- The priority order of R132: lower weight first, then lower index, both unsigned. -/
def State.before (s : State) (i j : Idx) : Bool :=
  (s.nodeAt i).weight < (s.nodeAt j).weight ||
    ((s.nodeAt i).weight == (s.nodeAt j).weight && i.toNat < j.toNat)

/-- The index of least key among `is` (R132). -/
def State.leastOf (s : State) : List Idx → Option Idx
  | [] => none
  | i :: is =>
    match s.leastOf is with
    | none => some i
    | some j => if s.before j i then some j else some i

/-- `removeMin()` (R132): the index of least key, taken out of `PQ`. -/
def State.removeMin (s : State) : Option (Idx × State) :=
  match s.leastOf s.pq with
  | none => none
  | some i => some (i, { s with pq := s.pq.erase i })

/-- `CODE[k]` (R39). -/
def State.codeAt (s : State) (k : Nat) : CodeEntry := s.code[k]?.getD { valid := false, len := 0, val := 0 }

/-- `for s in 0..256: CODE[s].valid <- 0` (R150); `len` and `val` are not written (R154). -/
def State.dropCodes (s : State) : State :=
  { s with code := Vector.mk (s.code.toList.map fun c => { c with valid := false }).toArray (by simp) }

/-! ### The source port -/

/-- What `SrcRead(n)` answers (R61), with the state after it. -/
inductive SrcAnswer where
  | data (v : Nat) (s : State)
  | noData (s : State)
  | refused (r : Refusal)

/-- Note a port transaction of the block (R71). -/
def State.note (e : PortEvent) (s : State) : State := { s with trace := s.trace ++ [e] }

/-- `SrcRead(n)` (R61): all `n` bits or `NODATA`, with the end-of-stream latch. -/
def srcRead (n : Nat) (s : State) : SrcAnswer :=
  match s.source with
  | none => .refused .sourceUnbound
  | some src =>
    if n = 0 ∨ Config.portMaxN < n then .refused .transferWidth
    else if src.eos = true ∨ src.bits.length < src.pos + n then
      .noData ({ s with source := some { src with eos := true } }.note (.srcRead n none))
    else
      let v := intOf ((src.bits.drop src.pos).take n)
      .data v ({ s with source := some { src with pos := src.pos + n } }.note (.srcRead n (some v)))

/-- A source after `SrcReset` (R62): at its start, the latch clear. The bits are those delivered before unless the input has been
changed (R266). -/
def Source.rewound (src : Source) : Source := { bits := src.rescan.getD src.bits, pos := 0, eos := false, rescan := none }

/-- `SrcReset()` (R62). -/
def srcReset (s : State) : Outcome :=
  match s.source with
  | none => .refused .sourceUnbound
  | some src => .next ({ s with source := some src.rewound }.note .srcReset)

/-- A bound on the passes of a loop in which every pass reads from the source or ends (R276). -/
def State.passes (s : State) : Nat :=
  match s.source with
  | none => 1
  | some src => src.bits.length + 1

/-! ### The sink port -/

/-- `SinkWrite(n, v)` (R64): append the low `n` bits of `v`. -/
def sinkWrite (n v : Nat) (s : State) : Outcome :=
  match s.sink with
  | none => .refused .sinkUnbound
  | some snk =>
    if snk.closed then .refused .sinkClosed
    else if n = 0 ∨ Config.portMaxN < n then .refused .transferWidth
    else .next ({ s with sink := some { snk with out := snk.out ++ bitsOf n v } }.note (.sinkWrite n v))

/-- `SinkClose()` (R65), the host's: `k = (8 - |OUT| mod 8) mod 8` pad bits of the host's choice, then closed. -/
def sinkClose (pad : BitVec 7) (s : State) : Outcome :=
  match s.sink with
  | none => .refused .sinkUnbound
  | some snk =>
    if snk.closed then .refused .sinkClosed
    else .next { s with sink := some { out := snk.out ++ bitsOf ((8 - snk.out.length % 8) % 8) pad.toNat, closed := true } }

end Sys2Proof.Machine
end

