-- ==== Sys2Proof/Machine/Builder.lean ====
section
/-! DEFINITION. huffman_tree_builder: BUILD (41_tree_builder.md). -/

namespace Sys2Proof.Machine

/-- A leaf of BUILD (R130): allocated, written (`left` and `right` are not, R36) and inserted. -/
def addLeaf (sym : Sym) (weight : Nat) (s : State) : State :=
  (s.allocNode fun e => { e with kind := .leaf, sym := sym, weight := weight }).insertPq s.nalloc

/-- R133: is every `FREQ[s]` with `s < 256` 0? -/
def emptyInput (s : State) : Bool := (s.freq.toList.take Config.eosSym).all fun n => n == 0

/-- The filler leaf of an empty input (R133), before the sentinel's leaf. -/
def addFiller (s : State) : State := if emptyInput s then addLeaf Config.fillSym 0 s else s

/-- One leaf for each count above 0, in ascending order of symbol (R131); the counts are those of the symbols from `k` on. -/
def addLeaves : Nat → List Nat → State → State
  | _, [], s => s
  | k, n :: counts, s => addLeaves (k + 1) counts (if 0 < n then addLeaf (BitVec.ofNat 9 k) n s else s)

/-- The new internal node of a merge (R134): left the first removed, right the second, weight the sum (R136). -/
def addInternal (a b : Idx) (s : State) : State :=
  (s.allocNode fun _ =>
    { kind := .internal, sym := 0, weight := (s.nodeAt a).weight + (s.nodeAt b).weight, left := a, right := b }).insertPq
    s.nalloc

/-- `while PQN > 1` (R130, R134): remove two, merge, insert. -/
def mergeLoop : Nat → State → Outcome
  | 0, _ => .fault .loopBound
  | passes + 1, s =>
    if s.pq.length ≤ 1 then .next s
    else
      match s.removeMin with
      | none => .fault .emptyQueue
      | some (a, s) =>
        match s.removeMin with
        | none => .fault .emptyQueue
        | some (b, s) => mergeLoop passes (addInternal a b s)

/-- `ROOT <- removeMin()` (R135), and the flags of the normal end. -/
def takeRoot (s : State) : Outcome :=
  match s.removeMin with
  | none => .fault .emptyQueue
  | some (r, s) => .next { s with root := r }.validateBuiltTree

/-- The leaves of BUILD, from an empty node array and an empty `PQ` (R130, R131). -/
def placeLeaves (s : State) : State :=
  addLeaves 0 s.freq.toList (addFiller { s with nalloc := 0, pq := [] })

/-- BUILD (R130). -/
def execBuild (s : State) : Outcome :=
  unlessFaulted s fun s => requireFlags s.status.freqValid s fun s =>
    releaseScratch (andThen (mergeLoop Config.nsym.succ (placeLeaves s.invalidateTree)) takeRoot)

end Sys2Proof.Machine
end

