-- ==== Sys2Proof/Machine/CodeGen.lean ====
section
/-! DEFINITION. canonical_code_generator: GENCODE (42_code_generator.md). -/

namespace Sys2Proof.Machine

/-- `CODE[sym] <- {valid 1, len |p|, val int(p)}` (R150). -/
def recordCode (sym : Sym) (path : Bits) (s : State) : Outcome :=
  if sym.toNat < Config.nsym ∧ path.length ≤ Config.maxLen then
    .next { s with code := s.code.setIfInBounds sym.toNat (codeOf path) }
  else .fault .codeTableRange

/-- `walk(i, p)` (R150): left edges are 0, right edges 1. The first argument bounds the depth. -/
def codeWalk : Nat → Idx → Bits → State → Outcome
  | 0, _, _, _ => .fault .endlessTree
  | depth + 1, i, path, s =>
    match s.readNode i with
    | none => .fault .unwrittenNode
    | some e =>
      match e.kind with
      | .leaf => recordCode e.sym path s
      | .internal =>
        andThen (codeWalk depth e.left (path ++ [false]) s) fun s => codeWalk depth e.right (path ++ [true]) s

/-- GENCODE (R150), for built trees only (R156). -/
def execGencode (s : State) : Outcome :=
  unlessFaulted s fun s => requireFlags (s.status.treeValid && s.status.treeBuilt) s fun s =>
    releaseScratch
      (andThen (codeWalk Config.nodeCap s.root [] s.invalidateCode.dropCodes) fun s => .next s.validateCode)

end Sys2Proof.Machine
end

