-- ==== Sys2Proof/Machine/Counter.lean ====
section
/-! DEFINITION. frequency_counter: COUNT (40_frequency_counter.md). -/

namespace Sys2Proof.Machine

/-- The loop of COUNT (R120), left by `NODATA` or by `E_COUNT_OVERFLOW` (R123: the byte is consumed, the increment is not
done). The sentinel's count is written, not counted (R121). -/
def countLoop : Nat → State → Outcome
  | 0, _ => .fault .loopBound
  | passes + 1, s =>
    match srcRead 8 s with
    | .refused r => .refused r
    | .noData s => .next (s.setFreq Config.eosSym 1).validateFreq
    | .data v s =>
      if s.freqAt v < 2 ^ s.cntW - 1 then countLoop passes (s.setFreq v (s.freqAt v + 1))
      else .next (raise .countOverflow s)

/-- COUNT (R120): it reads the source from where it stands (R124). -/
def execCount (s : State) : Outcome :=
  unlessFaulted s fun s => releaseScratch (countLoop s.passes s.invalidateFreq.zeroFreq)

end Sys2Proof.Machine
end

