-- ==== Sys2Proof/Machine/Header.lean ====
section
/-! DEFINITION. huffman_header_codec: WRMAGIC, WRHDR, RDMAGIC, RDHDR (43_header_codec.md), and the wire tokens it reads
(30_encoding.md R94 to R96). RDMAGIC and RDHDR take the stream token by token: a token is fetched from the source, decoded, and
its meaning is run. RDHDR's recursion `get()` is held on `STK` (10_state.md R41): a frame is an internal node whose subtrees are
still being read. -/

namespace Sys2Proof.Machine

/-! ### Writing -/

/-- WRMAGIC (R160). -/
def execWrmagic (s : State) : Outcome :=
  unlessFaulted s fun s => sinkWrite Config.magicW Config.magic s

/-- `put(i)` (R161). The first argument bounds the depth. -/
def putTree : Nat → Idx → State → Outcome
  | 0, _, _ => .fault .endlessTree
  | depth + 1, i, s =>
    match s.readNode i with
    | none => .fault .unwrittenNode
    | some e =>
      match e.kind with
      | .internal =>
        andThen (sinkWrite 1 0 s) fun s => andThen (putTree depth e.left s) fun s => putTree depth e.right s
      | .leaf => andThen (sinkWrite 1 1 s) fun s => sinkWrite Config.symfW e.sym.toNat s

/-- WRHDR (R161). -/
def execWrhdr (s : State) : Outcome :=
  unlessFaulted s fun s => requireFlags s.status.treeValid s fun s =>
    releaseScratch (putTree Config.nodeCap s.root s)

/-! ### Fetching a wire token -/

/-- What fetching gives: an instruction, with the state after its bits have been read; or the end of the operation. -/
inductive Fetched where
  | got (i : Instr) (s : State)
  | ended (o : Outcome)

/-- A fault of RDHDR (R164): `NODE` is left half written and the scratch registers unspecified. -/
def raiseInTree (e : ErrKind) (s : State) : Outcome := .next (raise e s).freeScratch

/-- `SrcRead(32)` of RDMAGIC (R163): anything but the magic, `NODATA` too, raises `E_ILLEGAL_HEADER`. -/
def fetchMagic (s : State) : Fetched :=
  match srcRead Config.magicW s with
  | .refused r => .ended (.refused r)
  | .noData s => .ended (.next (raise .illegalHeader s))
  | .data v s =>
    match decode (.wire (bitsOf Config.magicW v)) with
    | .ok i => .got i s
    | .error _ => .ended (.next (raise .illegalHeader s))

/-- The reads of `get()` (R164): the flag; then, for a leaf, the nine bits of its symbol. When those are missing (R170) the
node's index has been taken already. -/
def fetchTreeToken (s : State) : Fetched :=
  match srcRead 1 s with
  | .refused r => .ended (.refused r)
  | .noData s => .ended (raiseInTree .malformedTree s)
  | .data flag s =>
    if treeTokenLength (flag == 1) = 1 then
      match decode (.wire (bitsOf 1 flag)) with
      | .ok i => .got i s
      | .error _ => .ended (raiseInTree .malformedTree s)
    else
      match srcRead Config.symfW s with
      | .refused r => .ended (.refused r)
      | .noData s => .ended (raiseInTree .malformedTree { s with nalloc := s.nalloc + 1 })
      | .data v s =>
        match decode (.wire (bitsOf 1 flag ++ bitsOf Config.symfW v)) with
        | .ok i => .got i s
        | .error _ => .ended (raiseInTree .malformedTree s)

/-- Fetch the token the running operation waits for (R90). -/
def fetchWire (s : State) : Fetched :=
  match s.activity with
  | .idle => .ended (.refused .tokenNotAwaited)
  | .magic => fetchMagic s
  | .tree => fetchTreeToken s

/-! ### The meanings of the wire tokens -/

/-- W.MAGIC: the magic was right; nothing is recorded and RDMAGIC ends (R163). -/
def execWMagic (s : State) : Outcome :=
  match s.activity with
  | .magic => .next { s with activity := .idle }
  | .idle | .tree => .refused .tokenNotAwaited

/-- The head of the next `get()` (R164, R171): the capacity is tested before the read of the node's flag. -/
def awaitNode (stk : List Frame) (s : State) : Outcome :=
  if s.nalloc.toNat < Config.nodeCap then .next { s with scratch := { s.scratch with stk := stk } }
  else raiseInTree .treeOverflow s

/-- The end of RDHDR (R164): `ROOT` is the index `get()` returned, the tree is valid, nothing runs. -/
def endTree (r : Idx) (s : State) : Outcome :=
  .next ({ s with root := r, activity := .idle }.validateReadTree).freeScratch

/-- `NODE[i].left <- l; NODE[i].right <- r` (R164). -/
def setChildren (i l r : Idx) (s : State) : State := s.setNode i { s.nodeAt i with left := l, right := r }

/-- The return of `get()` with the subtree `i` (R164): to a node whose right subtree is to come, or to one that is now whole,
or to RDHDR. A node's left child has the next index (R165). -/
def returnSubtree : List Frame → Idx → State → Outcome
  | [], i, s => endTree i s
  | ⟨p, false⟩ :: stk, _, s => awaitNode (⟨p, true⟩ :: stk) s
  | ⟨p, true⟩ :: stk, i, s => returnSubtree stk p (setChildren p (p + 1) i s)

/-- W.INODE: `get()` on the flag 0 (R164): an internal node is allocated, its left subtree is wanted next. -/
def execWInode (s : State) : Outcome :=
  match s.activity with
  | .tree =>
    if s.nalloc.toNat < Config.nodeCap then
      awaitNode (⟨s.nalloc, false⟩ :: s.scratch.stk) (s.allocNode fun e => { e with kind := .internal, sym := 0 })
    else raiseInTree .treeOverflow s
  | .idle | .magic => .refused .tokenNotAwaited

/-- W.LEAF: `get()` on the flag 1 and the symbol (R164, R100): a leaf is allocated and `get()` returns it. No content of the
symbol is refused (R105, R166). -/
def execWLeaf (sym : Nat) (s : State) : Outcome :=
  match s.activity with
  | .tree =>
    if s.nalloc.toNat < Config.nodeCap then
      returnSubtree s.scratch.stk s.nalloc
        { s.allocNode fun e => { e with kind := .leaf, sym := symField sym } with
          scratch := { s.scratch with sym := symField sym } }
    else raiseInTree .treeOverflow s
  | .idle | .magic => .refused .tokenNotAwaited

/-! ### Reading -/

/-- The meaning of a fetched token. -/
def runToken (i : Instr) (s : State) : Outcome :=
  match i with
  | .wMagic => execWMagic s
  | .wInode => execWInode s
  | .wLeaf sym => execWLeaf sym s
  | .clear | .count | .build | .gencode | .wrmagic | .wrhdr | .encode | .rdmagic | .rdhdr | .decode | .compress
  | .decompress => .refused .tokenNotAwaited

/-- Fetch one token and run it. -/
def takeToken (s : State) : Outcome :=
  match fetchWire s with
  | .got i s => runToken i s
  | .ended o => o

/-- Take tokens until the tree is whole or a fault is raised. -/
def tokenLoop : Nat → State → Outcome
  | 0, _ => .fault .loopBound
  | passes + 1, s =>
    andThen (takeToken s) fun s =>
      match s.activity with
      | .tree => tokenLoop passes s
      | .idle | .magic => .next s

/-- RDMAGIC begun: it waits for the magic. -/
def startMagic (s : State) : State := { s with activity := .magic }

/-- RDHDR begun (R164): flags, `NALLOC`, an empty stack; it waits for the root's flag. -/
def startTree (s : State) : State :=
  { s.invalidateTree with nalloc := 0, activity := .tree, scratch := { s.scratch with stk := [] } }

/-- RDMAGIC (R163). -/
def execRdmagic (s : State) : Outcome :=
  unlessFaulted s fun s => takeToken (startMagic s)

/-- RDHDR (R164): at most `NODE_CAP` nodes are read (R276). -/
def execRdhdr (s : State) : Outcome :=
  unlessFaulted s fun s => tokenLoop Config.nodeCap.succ (startTree s)

end Sys2Proof.Machine
end

