-- ==== Sys2Proof/Machine/PayloadDecoder.lean ====
section
/-! DEFINITION. huffman_payload_decoder: DECODE (45_payload_decoder.md). -/

namespace Sys2Proof.Machine

/-- `CUR <- ROOT; STATUS.DSTATE <- AT_ROOT` (R190). -/
def State.cursorToRoot (s : State) : State := { s with cur := s.root }.setDState .atRoot

/-- The child of a node that the bit `b` selects (R190): 0 left, 1 right. -/
def childOf (e : NodeEntry) (b : Nat) : Idx := if b = 0 then e.left else e.right

/-- The loop of DECODE (R190), one pass a bit; the transitions are the table of R191. -/
def decodeLoop : Nat → State → Outcome
  | 0, _ => .fault .loopBound
  | passes + 1, s =>
    match srcRead 1 s with
    | .refused r => .refused r
    | .noData s => .next (raise .malformedPayload s)
    | .data b s =>
      match s.readNode s.cur with
      | none => .fault .unwrittenNode
      | some here =>
        match s.readNode (childOf here b) with
        | none => .fault .unwrittenNode
        | some e =>
          match e.kind with
          | .internal => decodeLoop passes ({ s with cur := childOf here b }.setDState .descending)
          | .leaf =>
            if e.sym.toNat = Config.eosSym then .next ({ s with cur := childOf here b }.setDState .terminated)
            else andThen (sinkWrite 8 e.sym.toNat s) fun s => decodeLoop passes s.cursorToRoot

/-- DECODE (R190). A tree that is one leaf is refused before any read (R192). -/
def execDecode (s : State) : Outcome :=
  unlessFaulted s fun s => requireFlags s.status.treeValid s fun s =>
    match s.readNode s.root with
    | none => .fault .unwrittenNode
    | some e =>
      match e.kind with
      | .leaf => .next (raise .degenerateTree s)
      | .internal => decodeLoop s.passes s.cursorToRoot

end Sys2Proof.Machine
end

