-- ==== Sys2Proof/Machine/PayloadEncoder.lean ====
section
/-! DEFINITION. huffman_payload_encoder: ENCODE (44_payload_encoder.md). -/

namespace Sys2Proof.Machine

/-- The loop of `emit` (R181): `r` bits of the code are left. The first argument bounds the pieces. -/
def emitPieces : Nat → Nat → BitVec 256 → State → Outcome
  | 0, _, _, _ => .fault .loopBound
  | pieces + 1, r, val, s =>
    if Config.portMaxN < r then
      andThen (sinkWrite Config.portMaxN (frontPiece r val) s) (emitPieces pieces (r - Config.portMaxN) val)
    else sinkWrite r (lastPiece r val) s

/-- `emit(c)` (R181): a code of at most 32 bits in one write, a longer one in pieces of 32 bits from its front. -/
def emit (c : CodeEntry) (s : State) : Outcome := emitPieces (c.len.toNat / Config.portMaxN + 1) c.len.toNat c.val s

/-- The sentinel's code, once, last (R183). -/
def emitSentinel (s : State) : Outcome :=
  if (s.codeAt Config.eosSym).valid then emit (s.codeAt Config.eosSym) s else .fault .unwrittenCode

/-- The loop of ENCODE (R180). -/
def encodeLoop : Nat → State → Outcome
  | 0, _ => .fault .loopBound
  | passes + 1, s =>
    match srcRead 8 s with
    | .refused r => .refused r
    | .noData s => emitSentinel s
    | .data v s =>
      if (s.codeAt v).valid then andThen (emit (s.codeAt v) s) (encodeLoop passes)
      else .next (raise .noCode s)

/-- ENCODE (R180): it rewinds the source itself (R185). -/
def execEncode (s : State) : Outcome :=
  unlessFaulted s fun s => requireFlags s.status.codeValid s fun s =>
    releaseScratch (andThen (srcReset s) fun s => encodeLoop s.passes s)

end Sys2Proof.Machine
end

