-- ==== Sys2Proof/Machine/Control.lean ====
section
/-! DEFINITION. Block control: CLEAR, COMPRESS, DECOMPRESS and the reserved commands (46_control.md). -/

namespace Sys2Proof.Machine

/-- CLEAR (R200), the one command accepted while faulted. -/
def execClear (s : State) : Outcome := .next (returnFromFault s)

/-- A reserved command code (R203, R231): `E_ILLEGAL_CMD` and nothing else; ignored while faulted (R206). -/
def execReserved (s : State) : Outcome := unlessFaulted s fun s => .next (raise .illegalCmd s)

/-- The operation a step of the macro sequencer runs (R109). -/
def runStep : MacroStep → State → Outcome
  | .count => execCount
  | .build => execBuild
  | .gencode => execGencode
  | .wrmagic => execWrmagic
  | .wrhdr => execWrhdr
  | .encode => execEncode
  | .rdmagic => execRdmagic
  | .rdhdr => execRdhdr
  | .decode => execDecode

/-- The macro sequencer (R27, R109): each step whole; a fault in one ends the macro (R15). -/
def runSteps : List MacroStep → State → Outcome
  | [], s => .next { s with seq := [] }
  | m :: rest, s =>
    andThen (runStep m { s with seq := rest }) fun s => if s.status.faulted then .next s else runSteps rest s

/-- The steps of COMPRESS (R201). The close is the host's (R268). -/
def compressSteps : List MacroStep := [.count, .build, .gencode, .wrmagic, .wrhdr, .encode]

/-- The steps of DECOMPRESS (R202). -/
def decompressSteps : List MacroStep := [.rdmagic, .rdhdr, .decode]

/-- COMPRESS (R201). -/
def execCompress (s : State) : Outcome := unlessFaulted s (runSteps compressSteps)

/-- DECOMPRESS (R202). -/
def execDecompress (s : State) : Outcome := unlessFaulted s (runSteps decompressSteps)

end Sys2Proof.Machine
end

