-- ==== Sys2Proof/Machine/HostSide.lean ====
section
/-! DEFINITION. The host's side (70_reset_and_hazards.md R263, R277): binding the ports, closing the sink, reading the two
registers, reset. -/

namespace Sys2Proof.Machine

/-- The free contents of `FREQ`, each count `CNT_W` bits wide. -/
def freeCounts (cntW draw : Nat) : Vector Nat 257 :=
  Vector.mk ((Config.freeFreq draw).toList.map (cutTo cntW)).toArray (by simp)

/-- The free contents of `NODE`, each weight `W_W` bits wide. -/
def freeNodes (cntW draw : Nat) : Vector NodeEntry 513 :=
  Vector.mk ((Config.freeNode draw).toList.map fun e =>
    { e with weight := cutTo (Config.weightW cntW) e.weight }).toArray (by simp)

/-- Reset in the middle of a run (R260): the registers R45 gives a value take it, every other register and array entry is
unspecified, and so a free value; the ports and the host's own are not touched. -/
def resetBlock (s : State) : State :=
  { s with
    root := Config.freeIdx s.draws
    nalloc := 0
    cur := Config.freeIdx (s.draws + 1)
    status := Status.zero
    err := none
    freq := freeCounts s.cntW s.draws
    node := freeNodes s.cntW s.draws
    pq := []
    code := Config.freeCode s.draws
    scratch := freeScratchOf s.cntW s.draws
    activity := .idle
    seq := []
    draws := s.draws + 2 }

/-- A register read puts its value where the host finds it; the block does not change (R34). -/
def hostRead (v : BitVec 8) (s : State) : Outcome := .next { s with readout := v }

/-- Bind a source (R60): `POS` and `EOS` are 0, and the input stays what it is. -/
def bindSource (bits : Bits) (s : State) : Outcome :=
  .next { s with source := some { bits := bits, pos := 0, eos := false, rescan := none } }

/-- The input behind the bound source is changed before the next rewind (R266, U17). -/
def changeInput (bits : Bits) (s : State) : Outcome :=
  match s.source with
  | none => .refused .sourceUnbound
  | some src => .next { s with source := some { src with rescan := some bits } }

/-- Bind an empty sink (R63). -/
def bindSink (s : State) : Outcome := .next { s with sink := some { out := [], closed := false } }

/-- A host read of `STATUS` (R30, R34). -/
def readStatus (s : State) : Outcome := hostRead s.status.word s

/-- A host read of `ERR` (R32, R34). -/
def readErr (s : State) : Outcome := hostRead (s.errWord.zeroExtend 8) s

/-- A host read of `CMD` (R33) "returns nothing a model may rely on": a free value. -/
def readCmd (s : State) : Outcome := hostRead (Config.freeRead s.draws) { s with draws := s.draws + 1 }

/-- Reset by the host. -/
def hostReset (s : State) : Outcome := .next (resetBlock s)

end Sys2Proof.Machine
end

