-- ==== Sys2Proof/Machine/Step.lean ====
section
/-! DEFINITION. One step: the next token of the operation that waits for one, the next step of a running macro, or the next
action of the host (00_scope.md R6, 10_state.md R27, R28, 30_encoding.md R90). -/

namespace Sys2Proof.Machine

/-- A write of `CMD` (R33): decode the code and run it; a reserved code raises `E_ILLEGAL_CMD` (R203). -/
def runCommand (op : BitVec 4) (s : State) : Host.Outcome State Fault Refusal :=
  match decode (.cmd op) with
  | .ok i => exec i s
  | .error _ => execReserved s

/-- The next token of the running operation, fetched from the source stream, decoded and run. -/
def runFetched (f : Fetched) : Host.Outcome State Fault Refusal :=
  match f with
  | .got i s => exec i s
  | .ended o => o

/-- The next action of the host; with none to come the block idles and keeps its state (R230, R244). -/
def runHost (s : State) : Host.Outcome State Fault Refusal :=
  match s.host with
  | [] => .next s
  | .writeCmd op :: rest => runCommand op { s with host := rest }
  | .bindSource bits :: rest => bindSource bits { s with host := rest }
  | .bindSink :: rest => bindSink { s with host := rest }
  | .changeInput bits :: rest => changeInput bits { s with host := rest }
  | .closeSink pad :: rest => sinkClose pad { s with host := rest }
  | .readStatus :: rest => readStatus { s with host := rest }
  | .readErr :: rest => readErr { s with host := rest }
  | .readCmd :: rest => readCmd { s with host := rest }
  | .reset :: rest => hostReset { s with host := rest }

/-- One step. The host's actions wait while an operation or a macro runs (R28, R33). -/
def step (s : State) : Host.Outcome State Fault Refusal :=
  match s.activity with
  | .magic => runFetched (fetchWire s)
  | .tree => runFetched (fetchWire s)
  | .idle =>
    match s.seq with
    | [] => runHost s
    | m :: rest => runSteps (m :: rest) s

/-- The bound source, or a new empty one. -/
def sourceOrEmpty (src : Option Source) : Source :=
  match src with
  | none => { bits := [], pos := 0, eos := false, rescan := none }
  | some src => src

/-- The sink bound, or a new empty one. -/
def sinkOrEmpty (snk : Option Sink) : Sink :=
  match snk with
  | none => { out := [], closed := false }
  | some snk => snk

/-- A source with the bits of a token written over its stream where it stands. -/
def placeToken (tok : Bits) (src : Source) : Source :=
  { src with bits := src.bits.take src.pos ++ tok ++ src.bits.drop (src.pos + tok.length), eos := false }

/-- The state in which the next step runs the instruction whose bits are `w`: a command is the host's next write of `CMD`, with
the ports bound as R264 asks; a wire token stands at the source's position, and the operation that takes it waits for it. Log
entry 4. -/
def State.withFetchWord (s : State) (nbits w : Nat) : State :=
  match tableEncoded nbits w with
  | none => s
  | some (.cmd op) =>
    { s with
      activity := .idle
      seq := []
      host := .writeCmd op :: s.host
      source := some (sourceOrEmpty s.source)
      sink := some (sinkOrEmpty s.sink) }
  | some (.wire bits) =>
    { s with
      activity := if bits.length = Config.magicW then .magic else .tree
      source := some (placeToken bits (sourceOrEmpty s.source)) }

end Sys2Proof.Machine
end

