-- ==== Sys2Proof/Safety.lean ====
section
/-! DEFINITION. The terms the statements use: trees as values (00_scope.md R17), the bits and transactions the rules give for
them, what a state looks like when its validity flags are right (10_state.md R31, R35, R37, R40), and when two states differ
only in what R46 calls unwritten. -/

namespace Sys2Proof.Machine

/-! ### Trees as values -/

/-- R17. -/
inductive HTree where
  | leaf (sym : Sym)
  | node (left right : HTree)
  deriving DecidableEq, Repr

/-- The number of nodes. -/
def HTree.size : HTree → Nat
  | .leaf _ => 1
  | .node l r => 1 + l.size + r.size

/-- The leaf symbols, left to right. -/
def HTree.syms : HTree → List Sym
  | .leaf s => [s]
  | .node l r => l.syms ++ r.syms

/-- The longest path, in edges. -/
def HTree.depth : HTree → Nat
  | .leaf _ => 0
  | .node l r => 1 + max l.depth r.depth

/-- `hdr(t)` (R99). -/
def HTree.hdr : HTree → Bits
  | .leaf s => true :: bitsOf 9 s.toNat
  | .node l r => false :: (l.hdr ++ r.hdr)

/-- `codes(t, p)` (R151): each leaf's symbol with its path. -/
def HTree.codes : HTree → Bits → List (Sym × Bits)
  | .leaf s, p => [(s, p)]
  | .node l r, p => l.codes (p ++ [false]) ++ r.codes (p ++ [true])

/-- The wire tokens of `hdr(t)`, in pre-order (R95, R96): one for each node. -/
def HTree.tokens : HTree → List Bits
  | .leaf s => [true :: bitsOf 9 s.toNat]
  | .node l r => [false] :: (l.tokens ++ r.tokens)

/-- The writes of `put` (R161). -/
def HTree.writes : HTree → List PortEvent
  | .leaf s => [.sinkWrite 1 1, .sinkWrite 9 s.toNat]
  | .node l r => .sinkWrite 1 0 :: (l.writes ++ r.writes)

/-- The reads of `get` (R164). -/
def HTree.reads : HTree → List PortEvent
  | .leaf s => [.srcRead 1 (some 1), .srcRead 9 (some s.toNat)]
  | .node l r => .srcRead 1 (some 0) :: (l.reads ++ r.reads)

/-- `tree(i)` (R17), to a depth: the tree the written entries of `NODE` hold below the index `i`. -/
def State.subtree (s : State) : Nat → Idx → Option HTree
  | 0, _ => none
  | depth + 1, i =>
    match s.readNode i with
    | none => none
    | some e =>
      match e.kind with
      | .leaf => some (.leaf e.sym)
      | .internal =>
        match s.subtree depth e.left, s.subtree depth e.right with
        | some l, some r => some (.node l r)
        | _, _ => none

/-- `T` (R17). -/
def State.tree (s : State) : Option HTree := s.subtree Config.nodeCap s.root

/-- The indices of the nodes below `i`, in pre-order, to a depth. -/
def State.preorder (s : State) : Nat → Idx → Option (List Nat)
  | 0, _ => none
  | depth + 1, i =>
    match s.readNode i with
    | none => none
    | some e =>
      match e.kind with
      | .leaf => some [i.toNat]
      | .internal =>
        match s.preorder depth e.left, s.preorder depth e.right with
        | some l, some r => some (i.toNat :: (l ++ r))
        | _, _ => none

/-! ### Streams -/

/-- The bytes that successive `SrcRead(8)` return from a bit string (R61, R124): whole ones only. -/
def wholeBytes : Bits → List Nat
  | b₇ :: b₆ :: b₅ :: b₄ :: b₃ :: b₂ :: b₁ :: b₀ :: rest => intOf [b₇, b₆, b₅, b₄, b₃, b₂, b₁, b₀] :: wholeBytes rest
  | _ => []

/-- What is still to be read from a source. -/
def Source.rest (src : Source) : Bits := if src.eos then [] else src.bits.drop src.pos

/-- The bytes COUNT reads from a source (R120). -/
def Source.bytes (src : Source) : List Nat := wholeBytes src.rest

/-- The reads of one tree token (R95, R96): the flag, and for a leaf the nine bits of its symbol. -/
def tokenReads : Bits → List PortEvent
  | true :: field => [.srcRead 1 (some 1), .srcRead 9 (some (intOf field))]
  | _ => [.srcRead 1 (some 0)]

/-- Has byte `b` a leaf, and so a code, when `bytes` have been counted: it occurs, or it is the filler's of an empty input (R131,
R133)? -/
def hasLeaf (bytes : List Nat) (b : Nat) : Prop := b ∈ bytes ∨ (bytes = [] ∧ b = Config.fillSym.toNat)

/-- The reads of COUNT (R120). -/
def countReads (bytes : List Nat) : List PortEvent := bytes.map (fun b => .srcRead 8 (some b)) ++ [.srcRead 8 none]

/-- The writes of `emit` (R181), `r` bits of the code being left. -/
def pieceWrites : Nat → Nat → BitVec 256 → List PortEvent
  | 0, _, _ => []
  | pieces + 1, r, val =>
    if 32 < r then .sinkWrite 32 (frontPiece r val) :: pieceWrites pieces (r - 32) val
    else [.sinkWrite r (lastPiece r val)]

/-- The writes of one code (R181). -/
def codeWrites (c : CodeEntry) : List PortEvent := pieceWrites (c.len.toNat / 32 + 1) c.len.toNat c.val

/-- The reads of one path, a bit each (R190). -/
def bitReads (p : Bits) : List PortEvent := p.map fun b => .srcRead 1 (some b.toNat)

/-- What decoding a list of leaves writes and reads (R190): the bits of each path, then the symbol's low 8 bits. -/
def symbolEvents (ms : List (Sym × Bits)) : List PortEvent :=
  ms.flatMap fun m => bitReads m.2 ++ [.sinkWrite 8 m.1.toNat]

/-- The bytes a list of leaves decodes to (R101, R193). -/
def symbolBits (ms : List (Sym × Bits)) : Bits := ms.flatMap fun m => bitsOf 8 m.1.toNat

/-- The paths of a list of leaves, end to end. -/
def pathBits (ms : List (Sym × Bits)) : Bits := ms.flatMap fun m => m.2

/-- The codes of a list of bytes, end to end (R180). -/
def State.payload (s : State) (bytes : List Nat) : Bits := bytes.flatMap fun b => codeBits (s.codeAt b)

/-- The reads and writes of ENCODE's loop for a list of bytes (R180). -/
def State.payloadEvents (s : State) (bytes : List Nat) : List PortEvent :=
  bytes.flatMap fun b => .srcRead 8 (some b) :: codeWrites (s.codeAt b)

/-- The leaves BUILD makes, as symbol and weight, in the order it makes them (R131, R133). -/
def State.leafList (s : State) : List (Nat × Nat) :=
  (if (List.range 256).all (fun k => s.freqAt k == 0) then [(0, 0)] else [])
    ++ ((List.range 257).filter fun k => decide (0 < s.freqAt k)).map fun k => (k, s.freqAt k)

/-- Neither a fault recorded nor the block faulted (R30, R32). -/
abbrev State.ready (s : State) : Prop := s.status.faulted = false ∧ s.err = none

/-- What R230 leaves of a state in which no fault was recorded. -/
def State.withFault (e : ErrKind) (s : State) : State :=
  { s with err := some e, status := { s.status with faulted := true }, activity := .idle, seq := [] }

/-- The key order of R132: lower weight first, then lower index. -/
def keyBefore (s : State) (i j : Idx) : Prop :=
  (s.nodeAt i).weight < (s.nodeAt j).weight ∨ ((s.nodeAt i).weight = (s.nodeAt j).weight ∧ i.toNat < j.toNat)

/-- `j` is one of the nodes a built tree of `L` leaves had before its node `k` was made, and was no child then: it was in `PQ`
(R134). -/
def waitsFor (t : State) (L k : Nat) (j : Idx) : Prop :=
  j.toNat < k ∧ ∀ k' e, L ≤ k' → k' < k → t.node[k']? = some e → j ≠ e.left ∧ j ≠ e.right

/-- The fault kinds an instruction can raise (R221), the wire tokens as parts of RDHDR. -/
def faultsOf : Instr → List ErrKind
  | .clear | .wrmagic | .wMagic => []
  | .count => [.countOverflow]
  | .build | .gencode | .wrhdr => [.sequence]
  | .encode => [.sequence, .noCode]
  | .rdmagic => [.illegalHeader]
  | .rdhdr => [.malformedTree, .treeOverflow]
  | .decode => [.sequence, .degenerateTree, .malformedPayload]
  | .compress => [.countOverflow, .noCode]
  | .decompress => [.illegalHeader, .malformedTree, .treeOverflow, .degenerateTree, .malformedPayload]
  | .wInode | .wLeaf _ => [.treeOverflow]

/-- The sink cannot be written, and the refusal that says why: none is bound, or the host has closed it. -/
def sinkRefuses (s : State) (r : Refusal) : Prop :=
  (s.sink = none ∧ r = .sinkUnbound) ∨ ∃ snk, s.sink = some snk ∧ snk.closed = true ∧ r = .sinkClosed

/-- Commands issued one after the other, stopped at the first fault (R109). -/
def execAll : List Instr → State → Outcome
  | [], s => .next s
  | i :: rest, s => andThen (exec i s) fun s => if s.status.faulted then .next s else execAll rest s

/-- A node after `get()` has returned from its right subtree `r` (R164, R165): its left child has the next index. -/
def closeNode (s : State) (pr : Idx × Idx) : State :=
  s.setNode pr.1 { s.nodeAt pr.1 with left := pr.1 + 1, right := pr.2 }

/-! ### What the validity flags vouch for -/

/-- R35: `FREQ[256] = 1` and every count fits `CNT_W` bits. -/
def State.freqOk (s : State) : Bool :=
  s.freqAt Config.eosSym == 1 && (List.range Config.nsym).all fun k => decide (s.freqAt k < 2 ^ s.cntW)

/-- R37: the entries below `NALLOC` form one strict binary tree rooted at `ROOT`: every one is reached by exactly one path. -/
def State.treeOk (s : State) : Bool :=
  match s.preorder Config.nodeCap s.root with
  | none => false
  | some l => decide l.Nodup && l.length == s.nalloc.toNat

/-- R37: the weight of an internal node is the sum of its children's. -/
def State.weightsOk (s : State) : Bool :=
  (List.range s.nalloc.toNat).all fun k =>
    match s.nodeAt (BitVec.ofNat 10 k) with
    | ⟨.leaf, _, _, _, _⟩ => true
    | ⟨.internal, _, w, l, r⟩ => w == (s.nodeAt l).weight + (s.nodeAt r).weight

/-- R37, R137: a built tree has at least three nodes, symbols 0 to 256, no symbol twice, the sentinel, and weights that add. -/
def State.builtOk (s : State) : Bool :=
  match s.tree with
  | none => false
  | some t =>
    decide (3 ≤ t.size) && t.syms.all (fun x => decide (x.toNat ≤ Config.eosSym)) && decide t.syms.Nodup
      && t.syms.contains (BitVec.ofNat 9 Config.eosSym) && s.weightsOk

/-- R40, R151: `CODE` holds exactly the paths of the tree. -/
def State.codesOk (s : State) : Bool :=
  match s.tree with
  | none => false
  | some t =>
    (List.range Config.nsym).all fun k =>
      match (t.codes []).lookup (BitVec.ofNat 9 k) with
      | none => !(s.codeAt k).valid
      | some p => s.codeAt k == codeOf p

/-- The registers agree with each other: `FAULTED = 1` iff `ERR != 0`, `TREE_BUILT` implies `TREE_VALID` (R30), `NALLOC` is at
most 513 (R22), below it while RDHDR waits for a node (R171), `PQ` and `STK` hold at most 257 and 512 entries (R38, R41), RDHDR's
stack no more than the nodes it has allocated, `POS <= |IN|` (R60), `CNT_W` at least 1 (R8). -/
def State.registersOk (s : State) : Bool :=
  (s.err.isSome == s.status.faulted)
    && (!s.status.treeBuilt || s.status.treeValid)
    && decide (s.nalloc.toNat ≤ Config.nodeCap)
    && (s.activity != .tree ||
      (decide (s.nalloc.toNat < Config.nodeCap) && decide (s.scratch.stk.length ≤ s.nalloc.toNat)))
    && decide (s.pq.length ≤ Config.nsym)
    && decide (s.scratch.stk.length ≤ Config.stkCap)
    && (match s.source with
        | none => true
        | some src => decide (src.pos ≤ src.bits.length))
    && decide (1 ≤ s.cntW)

/-- Every flag that is set is right (R31, R35, R37, R40, R205). -/
def State.flagsOk (s : State) : Bool :=
  (!s.status.freqValid || s.freqOk)
    && (!s.status.treeValid || s.treeOk)
    && (!s.status.treeBuilt || s.builtOk)
    && (!s.status.codeValid || (s.status.treeBuilt && s.codesOk))

/-- Between operations: no operation waits for a token, no macro runs (R28). -/
def State.atRest (s : State) : Bool := s.activity == .idle && s.seq == []

/-- The invariant of the block between operations. -/
def State.ok (s : State) : Bool := s.registersOk && s.flagsOk && s.atRest

/-! ### States that differ only in what is unwritten -/

/-- Two entries of `NODE` agree in what R36 and R46 let an operation read: a leaf's symbol, an internal node's children, and
weights if the tree was built. -/
def nodeAlike (built : Bool) (a b : NodeEntry) : Bool :=
  match a.kind, b.kind with
  | .leaf, .leaf => a.sym == b.sym && (!built || a.weight == b.weight)
  | .internal, .internal => a.left == b.left && a.right == b.right && (!built || a.weight == b.weight)
  | _, _ => false

/-- Two entries of `CODE` agree: both absent, or the same code (R39). -/
def codeAlike (a b : CodeEntry) : Bool := if a.valid then a == b else !b.valid

/-- Two states agree in everything but unwritten and scratch state: what a flag does not vouch for may differ, as may `CUR`,
`PQ` and the scratch registers (R44, R46). -/
def State.alike (s t : State) : Prop :=
  s.cntW = t.cntW ∧ s.status = t.status ∧ s.err = t.err ∧ s.activity = t.activity ∧ s.seq = t.seq ∧ s.source = t.source ∧
    s.sink = t.sink ∧ s.host = t.host ∧ s.readout = t.readout ∧ s.trace = t.trace ∧ s.draws = t.draws ∧
    (s.status.freqValid = true → s.freq = t.freq) ∧
    (s.status.treeValid = true → s.root = t.root ∧ s.nalloc = t.nalloc ∧
      ∀ i : Idx, i.toNat < s.nalloc.toNat → nodeAlike s.status.treeBuilt (s.nodeAt i) (t.nodeAt i) = true) ∧
    (s.status.codeValid = true → ∀ k < Config.nsym, codeAlike (s.codeAt k) (t.codeAt k) = true)

/-- Two outcomes agree: next states alike, or the same stop. -/
def outcomeAlike (o p : Outcome) : Prop :=
  match o, p with
  | .next s, .next t => s.alike t
  | .fault a, .fault b => a = b
  | .refused a, .refused b => a = b
  | _, _ => False

/-- The commands of R92: every instruction but the wire tokens. -/
def isCommand : Instr → Bool
  | .wMagic | .wInode | .wLeaf _ => false
  | .clear | .count | .build | .gencode | .wrmagic | .wrhdr | .encode | .rdmagic | .rdhdr | .decode | .compress
  | .decompress => true

end Sys2Proof.Machine
end

