-- ==== Sys2Proof/Certificates/Slice0/Obligations.lean ====
section
/-! DEFINITION. The statements for the provers. Each is about the machine, from the numbered rules of spec/; OBLIGATIONS.json
lists them. In a next state written `{ s with … }` every field not named is unchanged: that is the statement's frame. The
scratch registers and the count of draws after an operation are existentially bound: no statement rests on a free value. -/

open Sys2Proof Sys2Proof.Machine

/-! ### Encodings -/

/-- R92, R94 to R96: decoding the encoding of a well-formed instruction gives it back. -/
def Obligations.DecodeOfEncode : Prop :=
  ∀ i : Instr, wellFormed i = true → decode (encode i) = .ok i

/-- R92, R94 to R96: what decodes is the encoding of a well-formed instruction, so each encoding has one meaning. -/
def Obligations.EncodeOfDecode : Prop :=
  ∀ (e : Encoded) (i : Instr), decode e = .ok i → wellFormed i = true ∧ encode i = e

/-- R92, R94 to R96, R104, V29: words written out from the spec's tables; the codes `0x0` to `0xB` are commands, `0xC` to `0xF`
are rejected. -/
def Obligations.SpecWordsDecode : Prop :=
  decode (.cmd 0x1#4) = .ok .count ∧ decode (.cmd 0x2#4) = .ok .build ∧ decode (.cmd 0x3#4) = .ok .gencode ∧
    decode (.cmd 0x8#4) = .ok .rdhdr ∧ decode (.cmd 0x9#4) = .ok .decode ∧ decode (.cmd 0xA#4) = .ok .compress ∧
    decode (.wire [false]) = .ok .wInode ∧
    decode (.wire [true, false, false, true, true, false, false, false, true, false]) = .ok (.wLeaf 98) ∧
    decode (.wire
      [true, true, true, true, true, false, true, false, true, true, false, false, true, true, true, false,
        true, false, false, false, false, false, true, false, false, false, false, false, false, false, false, true]) =
      .ok .wMagic ∧
    ∀ op : BitVec 4, (12 ≤ op.toNat ∧ decode (.cmd op) = .error (.reservedCommand op)) ∨
      (op.toNat < 12 ∧ ∃ i, decode (.cmd op) = .ok i ∧ isCommand i = true)

/-! ### Steps -/

/-- R33, R90: a write of `CMD` runs the instruction its code decodes to; the step only takes the host's action off its list. That the
host's actions are a list in the state is the model's form, log entry 4. -/
def Obligations.StepRunsIssuedCommand : Prop :=
  ∀ (s : State) (op : BitVec 4) (rest : List HostAction) (i : Instr),
    s.activity = .idle → s.seq = [] → s.host = .writeCmd op :: rest → decode (.cmd op) = .ok i →
    step s = exec i { s with host := rest }

/-- R90, R163, R164: while RDMAGIC or RDHDR waits, a step reads the next token from the source where it stands, with the
transactions of R71, and runs the instruction its bits decode to. That these operations can stop between two tokens is the model's
form, log entry 4. -/
def Obligations.StepRunsAwaitedToken : Prop :=
  ∀ (s : State) (src : Source) (tok rest : Bits) (i : Instr),
    s.source = some src → src.eos = false → src.bits.drop src.pos = tok ++ rest → decode (.wire tok) = .ok i →
    ((s.activity = .magic ∧ i = .wMagic) ∨ (s.activity = .tree ∧ i ≠ .wMagic)) →
    step s = exec i { s with
      source := some { src with pos := src.pos + tok.length }
      trace := s.trace ++
        (match i with
          | .wMagic => [.srcRead 32 (some (intOf tok))]
          | .wLeaf sym => [.srcRead 1 (some 1), .srcRead 9 (some sym)]
          | _ => [.srcRead 1 (some 0)]) }

/-- R203, R231: a reserved code raises `E_ILLEGAL_CMD` and does nothing else; while faulted it is ignored. -/
def Obligations.ReservedCommandFaults : Prop :=
  ∀ (s : State) (op : BitVec 4) (rest : List HostAction),
    s.activity = .idle → s.seq = [] → s.host = .writeCmd op :: rest → 12 ≤ op.toNat →
    step s = .next
      (if s.status.faulted then { s with host := rest }
      else { s with
        host := rest
        err := some (s.err.getD .illegalCmd)
        status := { s.status with faulted := true } })

/-- R33, R34, R60, R63, R65, R244, R260, R266: what each of the host's other actions does. With nothing running and nothing for the
host to do, the block keeps its state. What a reset in the middle of a run leaves unspecified is a free value, log entry 7. -/
def Obligations.HostActionEffects : Prop :=
  ∀ s : State, s.activity = .idle → s.seq = [] → (s.host = [] → step s = .next s) ∧
    ∀ (a : HostAction) (rest : List HostAction), s.host = a :: rest → match a with
    | .bindSource bits => step s = .next { s with host := rest, source := some { bits := bits, pos := 0, eos := false, rescan := none } }
    | .bindSink => step s = .next { s with host := rest, sink := some { out := [], closed := false } }
    | .changeInput bits => ∀ src, s.source = some src →
        step s = .next { s with host := rest, source := some { src with rescan := some bits } }
    | .readStatus => step s = .next { s with host := rest, readout := s.status.word }
    | .readErr => step s = .next { s with host := rest, readout := s.errWord.zeroExtend 8 }
    | .readCmd => ∃ v d, step s = .next { s with host := rest, readout := v, draws := d }
    | .closeSink pad => ∀ snk, s.sink = some snk → snk.closed = false →
        ∃ p : Bits, p.length = (8 - snk.out.length % 8) % 8 ∧ p = bitsOf p.length pad.toNat ∧
          step s = .next { s with host := rest, sink := some { out := snk.out ++ p, closed := true } }
    | .reset => ∃ t, step s = .next t ∧ t.status = Status.zero ∧ t.err = none ∧ t.nalloc = 0 ∧ t.pq = [] ∧
        t.source = s.source ∧ t.sink = s.sink ∧ t.cntW = s.cntW ∧ t.host = rest ∧ t.activity = .idle ∧ t.seq = []
    | .writeCmd _ => True

/-- R30, R32, R221: the two words the host reads: the bits of `STATUS`, `DSTATE` as 0, 1, 2, and bit 7 as 0; `ERR` as 0 or the code of
the recorded fault. -/
def Obligations.StatusAndErrWords : Prop :=
  (∀ st : Status, st.word[0] = st.freqValid ∧ st.word[1] = st.treeValid ∧ st.word[2] = st.treeBuilt ∧
    st.word[3] = st.codeValid ∧ st.word[6] = st.faulted ∧ st.word[7] = false ∧
    st.word.extractLsb' 4 2 =
      match st.dstate with
      | .atRoot => 0
      | .descending => 1
      | .terminated => 2) ∧
  ∀ s : State, s.errWord =
    match s.err with
    | none => 0
    | some .illegalHeader => 1
    | some .malformedTree => 2
    | some .malformedPayload => 3
    | some .countOverflow => 4
    | some .treeOverflow => 5
    | some .noCode => 6
    | some .degenerateTree => 7
    | some .sequence => 8
    | some .illegalCmd => 9

/-! ### Reset, CLEAR, faults -/

/-- R45, R260: the values the spec gives after reset. -/
def Obligations.ResetValues : Prop :=
  State.reset.status.word = 0 ∧ State.reset.errWord = 0 ∧ State.reset.nalloc = 0 ∧ State.reset.pqn = 0 ∧
    State.reset.activity = .idle ∧ State.reset.seq = []

/-- R200, R236: CLEAR, in every state. That `ROOT`, `CUR` and the scratch registers keep what they held is the model's choice, log
entry 20. -/
def Obligations.ClearReturnsFromFault : Prop :=
  ∀ s : State, exec .clear s = .next { s with status := Status.zero, err := none, nalloc := 0, pq := [] }

/-- R206: while faulted every command but CLEAR is ignored, a reserved code too. -/
def Obligations.FaultedBlockIgnoresCommands : Prop :=
  ∀ s : State, s.status.faulted = true →
    (∀ i : Instr, isCommand i = true → i ≠ .clear → exec i s = .next s) ∧
    ∀ (op : BitVec 4) (rest : List HostAction), s.activity = .idle → s.seq = [] → s.host = .writeCmd op :: rest →
      op ≠ 0 → step s = .next { s with host := rest }

/-- R230: `raise E`: the first fault wins, `FAULTED` is set, the operation and the macro end, nothing else changes. -/
def Obligations.RaiseRecordsFirstFault : Prop :=
  ∀ (e : ErrKind) (s : State),
    (s.err = none → raise e s = { s with
      err := some e, status := { s.status with faulted := true }, activity := .idle, seq := [] }) ∧
    ∀ e₀, s.err = some e₀ → raise e s = { s with
      status := { s.status with faulted := true }, activity := .idle, seq := [] }

/-- R32, R237: a fault, once recorded, stays until CLEAR, whatever is run. -/
def Obligations.FaultKeptUntilClear : Prop :=
  ∀ (i : Instr) (s t : State), i ≠ .clear → exec i s = .next t →
    (∀ e, s.err = some e → t.err = some e) ∧ (s.status.faulted = true → t.status.faulted = true)

/-- R204, R229: an operation whose prerequisite does not hold raises `E_SEQUENCE` and changes nothing else. -/
def Obligations.MissingFlagRaisesSequence : Prop :=
  ∀ s : State, s.ready →
    (s.status.freqValid = false → exec .build s = .next (s.withFault .sequence)) ∧
    (s.status.treeValid = false ∨ s.status.treeBuilt = false → exec .gencode s = .next (s.withFault .sequence)) ∧
    (s.status.treeValid = false → exec .wrhdr s = .next (s.withFault .sequence)) ∧
    (s.status.codeValid = false → exec .encode s = .next (s.withFault .sequence)) ∧
    (s.status.treeValid = false → exec .decode s = .next (s.withFault .sequence))

/-! ### Ports -/

/-- R61, R62, R266: `SrcRead(n)` is all or nothing, with the latch; `SrcReset()` rewinds and clears it, and the same bits are read
again unless the input has been changed. That a changed input is held in `rescan` and put in place by the rewind is the model's
choice, log entry 17. -/
def Obligations.SrcReadAllOrNothing : Prop :=
  ∀ (s : State) (src : Source) (n : Nat), s.source = some src → 1 ≤ n → n ≤ 32 →
    (src.eos = true ∨ src.bits.length < src.pos + n →
      srcRead n s = .noData { s with source := some { src with eos := true }, trace := s.trace ++ [.srcRead n none] }) ∧
    (src.eos = false → ∀ p rest : Bits, src.bits.drop src.pos = p ++ rest → p.length = n →
      srcRead n s = .data (intOf p) { s with
        source := some { src with pos := src.pos + n }, trace := s.trace ++ [.srcRead n (some (intOf p))] } ∧
      intOf p < 2 ^ n) ∧
    (src.rescan = none → srcReset s = .next { s with
      source := some { src with pos := 0, eos := false }, trace := s.trace ++ [PortEvent.srcReset] }) ∧
    ∀ second, src.rescan = some second → srcReset s = .next { s with
      source := some { bits := second, pos := 0, eos := false, rescan := none }
      trace := s.trace ++ [PortEvent.srcReset] }

/-- R64, R68: `SinkWrite(n, v)` appends the low `n` bits; two writes put the bits of the joined one. -/
def Obligations.SinkWriteAppendsLowBits : Prop :=
  ∀ (s : State) (snk : Sink) (n v : Nat), s.sink = some snk → snk.closed = false → 1 ≤ n → n ≤ 32 →
    sinkWrite n v s = .next { s with
      sink := some { snk with out := snk.out ++ bitsOf n (v % 2 ^ n) }, trace := s.trace ++ [.sinkWrite n v] } ∧
    (bitsOf n v).length = n ∧ intOf (bitsOf n v) = v % 2 ^ n ∧
    ∀ m x : Nat, bitsOf m x ++ bitsOf n v = bitsOf (m + n) (x * 2 ^ n + v % 2 ^ n)

/-! ### frequency_counter -/

/-- R120 to R122, R124: COUNT, from where the source stands, for counts that fit. -/
def Obligations.CountFillsFrequencies : Prop :=
  ∀ (s : State) (src : Source), s.status.faulted = false → s.source = some src →
    (∀ k < 256, src.bytes.count k ≤ 2 ^ s.cntW - 1) →
    ∃ (freq' : Vector Nat 257) (x : Scratch) (d : Nat),
      exec .count s = .next { s with
        freq := freq'
        status := { s.status with freqValid := true, treeValid := false, treeBuilt := false, codeValid := false }
        source := some { src with pos := src.pos + 8 * src.bytes.length, eos := true }
        trace := s.trace ++ countReads src.bytes
        scratch := x
        draws := d } ∧
      (∀ k < 256, freq'[k]? = some (src.bytes.count k)) ∧ freq'[256]? = some 1

/-- R123, R225: the increment that would pass `2^CNT_W - 1` raises `E_COUNT_OVERFLOW`, the byte consumed. -/
def Obligations.CountOverflowFaults : Prop :=
  ∀ (s : State) (src : Source) (pre post : List Nat) (v : Nat), s.ready → s.source = some src →
    src.bytes = pre ++ v :: post → (∀ k, pre.count k ≤ 2 ^ s.cntW - 1) → pre.count v = 2 ^ s.cntW - 1 →
    ∃ (freq' : Vector Nat 257) (x : Scratch) (d : Nat),
      exec .count s = .next { s with
        freq := freq'
        status := { s.status with
          freqValid := false, treeValid := false, treeBuilt := false, codeValid := false, faulted := true }
        err := some .countOverflow
        activity := .idle
        seq := []
        source := some { src with pos := src.pos + 8 * (pre.length + 1) }
        trace := s.trace ++ (pre ++ [v]).map fun b => .srcRead 8 (some b)
        scratch := x
        draws := d } ∧
      ∀ k < 257, freq'[k]? = some (pre.count k)

/-! ### huffman_tree_builder -/

/-- R132: `removeMin` takes out the one index of least key (weight, index). -/
def Obligations.RemoveMinTakesLeast : Prop :=
  ∀ s : State, s.pq ≠ [] → ∃ i, s.removeMin = some (i, { s with pq := s.pq.erase i }) ∧ i ∈ s.pq ∧
    ∀ j ∈ s.pq, j = i ∨ keyBefore s i j

/-- R130, R131, R133, R135, R138: BUILD completes; `L` leaves in ascending order, the filler first if there is one;
`NALLOC = 2L - 1`, `ROOT = 2L - 2`, `PQN = 0`; the entries from `NALLOC` up, and `left` and `right` of leaves, unwritten. That
`PQN` is 0 and unwritten fields keep what they held is the model's reading, log entries 8 and 12. -/
def Obligations.BuildPlacesLeavesInOrder : Prop :=
  ∀ s : State, s.status.faulted = false → s.status.freqValid = true → 0 < s.freqAt 256 →
    ∃ (node' : Vector NodeEntry 513) (x : Scratch) (d : Nat),
      exec .build s = .next { s with
        node := node'
        nalloc := BitVec.ofNat 10 (2 * s.leafList.length - 1)
        root := BitVec.ofNat 10 (2 * s.leafList.length - 2)
        pq := []
        status := { s.status with treeValid := true, treeBuilt := true, codeValid := false }
        scratch := x
        draws := d } ∧
      2 ≤ s.leafList.length ∧ s.leafList.length ≤ 257 ∧
      (∀ k sym w, s.leafList[k]? = some (sym, w) →
        node'[k]? = some { s.nodeAt (BitVec.ofNat 10 k) with kind := .leaf, sym := BitVec.ofNat 9 sym, weight := w }) ∧
      ∀ k, 2 * s.leafList.length - 1 ≤ k → node'[k]? = s.node[k]?

/-- R132, R134, R136: BUILD makes the internal nodes `L` to `2L - 2` in order. Each takes, of the nodes that wait (made before it and
no child yet), the two of least key: the first removed on the left, the second on the right, its weight their sum. -/
def Obligations.BuildMergesLightestPair : Prop :=
  ∀ s : State, s.status.faulted = false → s.status.freqValid = true → 0 < s.freqAt 256 →
    ∃ t, exec .build s = .next t ∧
      ∀ k, s.leafList.length ≤ k → k < 2 * s.leafList.length - 1 →
        ∃ e, t.node[k]? = some e ∧ e.kind = .internal ∧ e.sym = 0 ∧
          e.weight = (t.nodeAt e.left).weight + (t.nodeAt e.right).weight ∧
          waitsFor t s.leafList.length k e.left ∧ waitsFor t s.leafList.length k e.right ∧
          keyBefore t e.left e.right ∧
          ∀ j, waitsFor t s.leafList.length k j → j ≠ e.left → j ≠ e.right → keyBefore t e.right j

/-- R137, R37: whatever the counts, BUILD leaves one strict binary tree without sharing or cycles, each symbol once, the
sentinel among them, its leaves those of the counts; the root's weight is the sum of the counts and fits `W_W` bits. -/
def Obligations.BuiltTreeIsWellFormed : Prop :=
  ∀ s : State, s.status.faulted = false → s.status.freqValid = true → s.freqOk = true →
    ∃ t T, exec .build s = .next t ∧ t.treeOk = true ∧ t.builtOk = true ∧ t.tree = some T ∧
      (T.syms.map BitVec.toNat).Perm (s.leafList.map Prod.fst) ∧
      (t.nodeAt t.root).weight = (s.leafList.map Prod.snd).sum ∧
      (t.nodeAt t.root).weight < 2 ^ Config.weightW s.cntW

/-- R133, V13: the tree of an empty input: the filler, the sentinel, and their parent. -/
def Obligations.BuildOfEmptyInput : Prop :=
  ∀ s : State, s.status.faulted = false → s.status.freqValid = true → s.freqAt 256 = 1 → (∀ k < 256, s.freqAt k = 0) →
    ∃ t, exec .build s = .next t ∧ t.tree = some (.node (.leaf 0) (.leaf 256)) ∧ t.root = 2 ∧ t.nalloc = 3 ∧
      ((t.nodeAt 0).kind = .leaf ∧ (t.nodeAt 0).sym = 0 ∧ (t.nodeAt 0).weight = 0) ∧
      ((t.nodeAt 1).kind = .leaf ∧ (t.nodeAt 1).sym = 256 ∧ (t.nodeAt 1).weight = 1) ∧
      t.nodeAt 2 = { kind := .internal, sym := 0, weight := 1, left := 0, right := 1 }

/-! ### canonical_code_generator -/

/-- R150, R151, R154: GENCODE records each leaf's path as its code and leaves the other entries absent, their `len` and `val`
unwritten. That an unwritten field keeps what it held is the model's reading, log entry 12. -/
def Obligations.GencodeRecordsPaths : Prop :=
  ∀ (s : State) (T : HTree), s.status.faulted = false → s.status.treeValid = true → s.status.treeBuilt = true →
    s.tree = some T → T.syms.Nodup → (∀ x ∈ T.syms, x.toNat ≤ 256) → T.depth ≤ 256 →
    ∃ (code' : Vector CodeEntry 257) (x : Scratch) (d : Nat),
      exec .gencode s = .next { s with
        code := code', status := { s.status with codeValid := true }, scratch := x, draws := d } ∧
      (∀ sym p, (sym, p) ∈ T.codes [] → ∃ c, code'[sym.toNat]? = some c ∧ c.valid = true ∧ c.len.toNat = p.length ∧
        c.val.toNat = intOf p ∧ codeBits c = p) ∧
      ∀ k < 257, (∀ p, (BitVec.ofNat 9 k, p) ∉ T.codes []) → code'[k]? = some { s.codeAt k with valid := false }

/-- R152: no code of a table is a prefix of another. -/
def Obligations.CodesArePrefixFree : Prop :=
  ∀ s : State, s.status.faulted = false → s.status.treeValid = true → s.status.treeBuilt = true → s.builtOk = true →
    ∃ t, exec .gencode s = .next t ∧
      ∀ a b, a < 257 → b < 257 → a ≠ b → (t.codeAt a).valid = true → (t.codeAt b).valid = true →
        ¬ codeBits (t.codeAt a) <+: codeBits (t.codeAt b)

/-- R153, R155, R40: every code has 1 to 256 bits, its value fits, the sentinel has one, and the sum of `2^(-len)` is 1. -/
def Obligations.CodeTableIsComplete : Prop :=
  ∀ s : State, s.status.faulted = false → s.status.treeValid = true → s.status.treeBuilt = true → s.builtOk = true →
    ∃ t, exec .gencode s = .next t ∧ (t.codeAt 256).valid = true ∧
      (∀ k < 257, (t.codeAt k).valid = true → 1 ≤ (t.codeAt k).len.toNat ∧ (t.codeAt k).len.toNat ≤ 256 ∧
        (t.codeAt k).val.toNat < 2 ^ (t.codeAt k).len.toNat) ∧
      ((List.range 257).map fun k =>
        if (t.codeAt k).valid then 2 ^ (256 - (t.codeAt k).len.toNat) else 0).sum = 2 ^ 256

/-! ### huffman_header_codec -/

/-- R160: WRMAGIC is one write of the magic; no flag is needed or written. -/
def Obligations.WrmagicWritesMagic : Prop :=
  ∀ (s : State) (snk : Sink), s.status.faulted = false → s.sink = some snk → snk.closed = false →
    exec .wrmagic s = .next { s with
      sink := some { snk with out := snk.out ++ bitsOf 32 0xFACE8201 }, trace := s.trace ++ [.sinkWrite 32 0xFACE8201] }

/-- R161: WRHDR writes `hdr(T)` and nothing else, with the transactions of `put`. -/
def Obligations.WrhdrWritesTree : Prop :=
  ∀ (s : State) (T : HTree) (snk : Sink), s.status.faulted = false → s.status.treeValid = true → s.tree = some T →
    s.sink = some snk → snk.closed = false →
    ∃ (x : Scratch) (d : Nat),
      exec .wrhdr s = .next { s with
        sink := some { snk with out := snk.out ++ T.hdr }, trace := s.trace ++ T.writes, scratch := x, draws := d }

/-- R163, R106: RDMAGIC takes the magic and nothing else; with fewer than 32 bits nothing is consumed. -/
def Obligations.RdmagicChecksMagic : Prop :=
  ∀ (s : State) (src : Source), s.ready → s.source = some src →
    (∀ p rest : Bits, src.eos = false → src.bits.drop src.pos = p ++ rest → p.length = 32 →
      (intOf p = 0xFACE8201 → exec .rdmagic s = .next { s with
        activity := .idle
        source := some { src with pos := src.pos + 32 }
        trace := s.trace ++ [.srcRead 32 (some 0xFACE8201)] }) ∧
      (intOf p ≠ 0xFACE8201 → exec .rdmagic s = .next (({ s with
        source := some { src with pos := src.pos + 32 }
        trace := s.trace ++ [.srcRead 32 (some (intOf p))] } : State).withFault .illegalHeader))) ∧
    (src.eos = true ∨ src.bits.length < src.pos + 32 → exec .rdmagic s = .next (({ s with
      source := some { src with eos := true }, trace := s.trace ++ [.srcRead 32 none] } : State).withFault .illegalHeader))

/-- R164, R165, R167, R168: RDHDR reads `hdr(T)` back as `T`, in pre-order numbers, whatever follows; no weight is written,
nor any entry from `NALLOC` up. That unwritten fields keep what they held is the model's
reading, log entry 12. -/
def Obligations.RdhdrReadsTree : Prop :=
  ∀ (s : State) (src : Source) (T : HTree) (rest : Bits), s.status.faulted = false → s.source = some src →
    src.eos = false → src.bits.drop src.pos = T.hdr ++ rest → T.size ≤ 513 →
    ∃ (node' : Vector NodeEntry 513) (x : Scratch) (d : Nat),
      let t := { s with
        node := node'
        nalloc := BitVec.ofNat 10 T.size
        root := 0
        status := { s.status with treeValid := true, treeBuilt := false, codeValid := false }
        activity := .idle
        source := some { src with pos := src.pos + T.hdr.length }
        trace := s.trace ++ T.reads
        scratch := x
        draws := d }
      exec .rdhdr s = .next t ∧ t.tree = some T ∧ t.preorder 513 0 = some (List.range T.size) ∧
        (∀ k : Nat, node'[k]?.map NodeEntry.weight = s.node[k]?.map NodeEntry.weight) ∧
        ∀ k, T.size ≤ k → node'[k]? = s.node[k]?

/-- R170, R223: a header cut at any bit before its last raises `E_MALFORMED_TREE`; the sink, `FREQ` and `CODE` stay. -/
def Obligations.CutHeaderIsMalformed : Prop :=
  ∀ (s : State) (src : Source) (T : HTree), s.ready → s.source = some src → src.eos = false → T.size ≤ 513 →
    src.bits.drop src.pos <+: T.hdr → src.bits.drop src.pos ≠ T.hdr →
    ∃ t pos, exec .rdhdr s = .next t ∧ t.err = some .malformedTree ∧
      t.status = { s.status with treeValid := false, treeBuilt := false, codeValid := false, faulted := true } ∧
      t.activity = .idle ∧ t.sink = s.sink ∧ t.freq = s.freq ∧ t.code = s.code ∧ t.root = s.root ∧ t.cur = s.cur ∧
      t.source = some { src with pos := pos, eos := true } ∧ src.pos ≤ pos

/-- R171, R226: when the source's first 513 tree tokens call for a 514th node, RDHDR raises `E_TREE_OVERFLOW` after the reads of those
513 tokens and no other, whatever follows: the 514th node's flag is not read, whether or not there is one. -/
def Obligations.HeaderCapacity : Prop :=
  ∀ (s : State) (src : Source) (T : HTree) (rest : Bits), s.ready → s.source = some src → src.eos = false →
    513 < T.size → src.bits.drop src.pos = (T.tokens.take 513).flatten ++ rest →
    ∃ t, exec .rdhdr s = .next t ∧ t.err = some .treeOverflow ∧ t.nalloc = 513 ∧
      t.status = { s.status with treeValid := false, treeBuilt := false, codeValid := false, faulted := true } ∧
      t.activity = .idle ∧ t.sink = s.sink ∧ t.freq = s.freq ∧ t.code = s.code ∧ t.root = s.root ∧ t.cur = s.cur ∧
      t.source = some { src with pos := src.pos + ((T.tokens.take 513).flatten).length } ∧
      t.trace = s.trace ++ (T.tokens.take 513).flatMap tokenReads

/-- R165, R166, R276: on any source RDHDR ends, with a well-formed tree or with one of its two faults. -/
def Obligations.RdhdrEndsWithTreeOrFault : Prop :=
  ∀ (s : State) (src : Source), s.ready → s.source = some src →
    ∃ t, exec .rdhdr s = .next t ∧
      ((t.ready ∧ t.status.treeValid = true ∧ t.treeOk = true) ∨
        (t.status.faulted = true ∧ t.status.treeValid = false ∧ (t.err = some .malformedTree ∨ t.err = some .treeOverflow)))

/-- R169: two headers back to back are read one after the other, each consuming its own bits. -/
def Obligations.HeadersAreSelfDelimiting : Prop :=
  ∀ (s : State) (src : Source) (A B : HTree) (rest : Bits), s.status.faulted = false → s.source = some src →
    src.eos = false → src.bits.drop src.pos = A.hdr ++ B.hdr ++ rest → A.size ≤ 513 → B.size ≤ 513 →
    ∃ t u, exec .rdhdr s = .next t ∧ t.tree = some A ∧ t.source = some { src with pos := src.pos + A.hdr.length } ∧
      exec .rdhdr t = .next u ∧ u.tree = some B ∧
      u.source = some { src with pos := src.pos + A.hdr.length + B.hdr.length }

/-- R168: what RDHDR reads without a fault, WRHDR writes again bit for bit. -/
def Obligations.WrhdrRepeatsReadHeader : Prop :=
  ∀ (s t : State) (src : Source) (snk : Sink), s.status.faulted = false → s.source = some src → s.sink = some snk →
    snk.closed = false → exec .rdhdr s = .next t → t.status.faulted = false →
    ∃ n u, t.source = some { src with pos := src.pos + n } ∧ exec .wrhdr t = .next u ∧
      u.sink = some { snk with out := snk.out ++ (src.bits.drop src.pos).take n }

/-! ### The wire tokens -/

/-- R94, R163: W.MAGIC ends RDMAGIC and records nothing. That RDMAGIC can wait for it in a state is the model's form, log entry 4. -/
def Obligations.MagicTokenEndsRdmagic : Prop :=
  ∀ s : State, s.activity = .magic → exec .wMagic s = .next { s with activity := .idle }

/-- R95, R164: W.INODE takes the next index for an internal node, whose left subtree is read next. Three points are the model's
reading: that the entry's `weight`, `left` and `right` keep what they held (log entry 12); that the node is a frame on `STK`, and that
the capacity is tested at the end of this token, whence the bound 512 (log entry 13). -/
def Obligations.InodeTokenAllocates : Prop :=
  ∀ s : State, s.activity = .tree → s.nalloc.toNat < 512 →
    exec .wInode s = .next { s with
      node := s.node.setIfInBounds s.nalloc.toNat { s.nodeAt s.nalloc with kind := .internal, sym := 0 }
      nalloc := s.nalloc + 1
      scratch := { s.scratch with stk := { idx := s.nalloc, leftDone := false } :: s.scratch.stk } }

/-- R96, R100, R164: W.LEAF takes the next index for a leaf of its symbol, writes the children of the nodes `ps` that it
completes, and RDHDR goes on with the right subtree of the node `q` or ends. Three points are the model's reading: that the fields
the rules do not write keep what they held (log entry 12); that the nodes still being read are frames on `STK`, and that the capacity
is tested at the end of this token, whence the bound 512 (log entry 13). -/
def Obligations.LeafTokenAllocates : Prop :=
  ∀ (s : State) (sym : Nat) (ps : List Idx), s.activity = .tree →
    let leaf := { s with
      node := s.node.setIfInBounds s.nalloc.toNat
        { s.nodeAt s.nalloc with kind := .leaf, sym := BitVec.ofNat 9 sym }
      nalloc := s.nalloc + 1
      scratch := { s.scratch with sym := BitVec.ofNat 9 sym } }
    let closed := (ps.zip (s.nalloc :: ps)).foldl closeNode leaf
    (s.scratch.stk = ps.map (fun p => { idx := p, leftDone := true }) → s.nalloc.toNat < 513 →
      ∃ (x : Scratch) (d : Nat), exec (.wLeaf sym) s = .next { closed with
        root := ps.getLast?.getD s.nalloc
        activity := .idle
        status := { s.status with treeValid := true }
        scratch := x
        draws := d }) ∧
    ∀ (q : Idx) (fs : List Frame),
      s.scratch.stk = ps.map (fun p => { idx := p, leftDone := true }) ++ { idx := q, leftDone := false } :: fs →
      s.nalloc.toNat < 512 →
      exec (.wLeaf sym) s = .next { closed with
        scratch := { closed.scratch with stk := { idx := q, leftDone := true } :: fs } }

/-- R171, R226: no 514th node is allocated: when one is called for, `E_TREE_OVERFLOW`. That the token which takes the last entry raises
it, the test at the head of the next `get()` being made at the end of this token, and that a node still being read is a frame on
`STK`, is the model's reading, log entry 13. -/
def Obligations.TokensRespectCapacity : Prop :=
  ∀ s : State, s.ready → s.activity = .tree → s.nalloc.toNat = 512 →
    ∀ i, (i = .wInode ∨
        ∃ (sym : Nat) (ps : List Idx) (q : Idx) (fs : List Frame), i = .wLeaf sym ∧
          s.scratch.stk = ps.map (fun p => { idx := p, leftDone := true }) ++ { idx := q, leftDone := false } :: fs) →
      ∃ t, exec i s = .next t ∧ t.err = some .treeOverflow ∧ t.status = { s.status with faulted := true } ∧
        t.nalloc = 513 ∧ t.activity = .idle ∧ t.root = s.root ∧ t.source = s.source ∧ t.sink = s.sink

/-- R90, R264, U11, U15, and the model's log entry 11: where the model refuses. A wire token no operation waits for; every command
that reaches a read with no source bound (COUNT, RDMAGIC, RDHDR, COMPRESS, DECOMPRESS at once, ENCODE and DECODE under their
prerequisites), or a write with no sink bound or a closed one (WRMAGIC at once, WRHDR, ENCODE, DECODE and the macros where their first
write is reached); the host's close and change of input on such ports; a transfer of no bits or of more than 32. -/
def Obligations.RefusalsOfTheModel : Prop :=
  ∀ s : State,
    (s.activity = .idle → ∀ i, isCommand i = false → exec i s = .refused .tokenNotAwaited) ∧
    (s.source = none → s.status.faulted = false →
      (∀ i, i = .count ∨ i = .rdmagic ∨ i = .rdhdr ∨ i = .compress ∨ i = .decompress → exec i s = .refused .sourceUnbound) ∧
      (s.status.codeValid = true → exec .encode s = .refused .sourceUnbound) ∧
      ∀ e, s.status.treeValid = true → s.readNode s.root = some e → e.kind = .internal →
        exec .decode s = .refused .sourceUnbound) ∧
    (∀ r, sinkRefuses s r → s.status.faulted = false →
      exec .wrmagic s = .refused r ∧
      (∀ e, s.status.treeValid = true → s.readNode s.root = some e → exec .wrhdr s = .refused r) ∧
      ∀ src, s.source = some src →
        (s.status.codeValid = true → (∀ b, b ∈ src.rewound.bytes ∨ b = 256 → (s.codeAt b).valid = true) →
          exec .encode s = .refused r) ∧
        ((∀ k < 256, src.bytes.count k ≤ 2 ^ s.cntW - 1) → exec .compress s = .refused r) ∧
        ∀ (T U : HTree) (x : Sym) (p rest : Bits), src.eos = false → (x, p) ∈ (HTree.node T U).codes [] → x ≠ 256 →
          (s.status.treeValid = true → s.tree = some (.node T U) → src.bits.drop src.pos = p ++ rest →
            exec .decode s = .refused r) ∧
          ((HTree.node T U).size ≤ 513 →
            src.bits.drop src.pos = bitsOf 32 0xFACE8201 ++ (HTree.node T U).hdr ++ p ++ rest →
            exec .decompress s = .refused r)) ∧
    (∀ pad r, sinkRefuses s r → sinkClose pad s = .refused r) ∧
    (∀ bits, s.source = none → changeInput bits s = .refused .sourceUnbound) ∧
    ∀ n, n = 0 ∨ 32 < n →
      (∀ src, s.source = some src → srcRead n s = .refused .transferWidth) ∧
      ∀ snk v, s.sink = some snk → snk.closed = false → sinkWrite n v s = .refused .transferWidth

/-! ### huffman_payload_encoder -/

/-- R180, R183, R185, R266: ENCODE rewinds, writes the code of every byte in order and the sentinel's code once, last. The bytes are
those the rewound source delivers; how a changed input is held is the model's choice, log entry 17. -/
def Obligations.EncodeWritesCodes : Prop :=
  ∀ (s : State) (src : Source) (snk : Sink), s.status.faulted = false → s.status.codeValid = true →
    s.source = some src → s.sink = some snk → snk.closed = false →
    (∀ b, b ∈ src.rewound.bytes ∨ b = 256 → (s.codeAt b).valid = true ∧ 1 ≤ (s.codeAt b).len.toNat) →
    ∃ (x : Scratch) (d : Nat),
      exec .encode s = .next { s with
        source := some { src.rewound with pos := 8 * src.rewound.bytes.length, eos := true }
        sink := some { snk with out := snk.out ++ s.payload src.rewound.bytes ++ codeBits (s.codeAt 256) }
        trace := s.trace ++ [PortEvent.srcReset] ++ s.payloadEvents src.rewound.bytes ++ [.srcRead 8 none]
          ++ codeWrites (s.codeAt 256)
        scratch := x
        draws := d }

/-- R182, R227, R266: a byte without a code raises `E_NO_CODE`; it is consumed, nothing is written for it or after it. The bytes are
those the rewound source delivers; how a changed input is held is the model's choice, log entry 17. -/
def Obligations.EncodeFaultsWithoutCode : Prop :=
  ∀ (s : State) (src : Source) (snk : Sink) (pre post : List Nat) (v : Nat), s.ready → s.status.codeValid = true →
    s.source = some src → s.sink = some snk → snk.closed = false → src.rewound.bytes = pre ++ v :: post →
    (∀ b ∈ pre, (s.codeAt b).valid = true ∧ 1 ≤ (s.codeAt b).len.toNat) → (s.codeAt v).valid = false →
    ∃ (x : Scratch) (d : Nat),
      exec .encode s = .next (({ s with
        source := some { src.rewound with pos := 8 * (pre.length + 1) }
        sink := some { snk with out := snk.out ++ s.payload pre }
        trace := s.trace ++ [PortEvent.srcReset] ++ s.payloadEvents pre ++ [.srcRead 8 (some v)]
        scratch := x
        draws := d } : State).withFault .noCode)

/-- R181: a code of `L` bits goes out whole in `ceil(L/32)` writes of at most 32 bits. -/
def Obligations.EmitCutsLongCodes : Prop :=
  ∀ (s : State) (snk : Sink) (c : CodeEntry), s.sink = some snk → snk.closed = false → 1 ≤ c.len.toNat →
    emit c s = .next { s with
      sink := some { snk with out := snk.out ++ codeBits c }, trace := s.trace ++ codeWrites c } ∧
    (codeWrites c).length = (c.len.toNat + 31) / 32 ∧
    (c.len.toNat ≤ 32 → c.val.toNat < 2 ^ c.len.toNat → codeWrites c = [.sinkWrite c.len.toNat c.val.toNat])

/-! ### huffman_payload_decoder -/

/-- R190, R191, R193, R194: DECODE follows paths of the tree, writes the low 8 bits of each leaf's symbol, stops at the
sentinel's leaf and reads no bit more. -/
def Obligations.DecodeWritesSymbols : Prop :=
  ∀ (s : State) (src : Source) (snk : Sink) (l r : HTree) (ms : List (Sym × Bits)) (q rest : Bits),
    s.status.faulted = false → s.status.treeValid = true → s.tree = some (.node l r) → s.source = some src →
    src.eos = false → s.sink = some snk → snk.closed = false →
    (∀ m ∈ ms, m ∈ (HTree.node l r).codes [] ∧ m.1 ≠ 256) → (256, q) ∈ (HTree.node l r).codes [] →
    src.bits.drop src.pos = pathBits ms ++ q ++ rest →
    ∃ (c : Idx) (e : NodeEntry), s.readNode c = some e ∧ e.kind = .leaf ∧ e.sym = 256 ∧
      exec .decode s = .next { s with
        cur := c
        status := { s.status with dstate := .terminated }
        source := some { src with pos := src.pos + (pathBits ms ++ q).length }
        sink := some { snk with out := snk.out ++ symbolBits ms }
        trace := s.trace ++ symbolEvents ms ++ bitReads q }

/-- R192, R228: a root that is a leaf raises `E_DEGENERATE_TREE` before any bit is read, whatever its symbol. -/
def Obligations.DecodeRefusesLoneLeaf : Prop :=
  ∀ (s : State) (e : NodeEntry), s.ready → s.status.treeValid = true → s.readNode s.root = some e → e.kind = .leaf →
    exec .decode s = .next (s.withFault .degenerateTree)

/-- R195, R232: a stream that ends before the sentinel raises `E_MALFORMED_PAYLOAD`; the symbols before stay written, and
`DSTATE` tells whether the end was between two codes or inside one. -/
def Obligations.CutPayloadIsMalformed : Prop :=
  ∀ (s : State) (src : Source) (snk : Sink) (l r : HTree) (ms : List (Sym × Bits)) (x : Sym) (p q : Bits),
    s.ready → s.status.treeValid = true → s.tree = some (.node l r) → s.source = some src → src.eos = false →
    s.sink = some snk → snk.closed = false →
    (∀ m ∈ ms, m ∈ (HTree.node l r).codes [] ∧ m.1 ≠ 256) → (x, p) ∈ (HTree.node l r).codes [] →
    q <+: p → q ≠ p →
    src.bits.drop src.pos = pathBits ms ++ q →
    ∃ c : Idx,
      exec .decode s = .next (({ s with
        cur := c
        status := { s.status with dstate := if q = [] then .atRoot else .descending }
        source := some { src with pos := src.pos + (pathBits ms ++ q).length, eos := true }
        sink := some { snk with out := snk.out ++ symbolBits ms }
        trace := s.trace ++ symbolEvents ms ++ bitReads q ++ [.srcRead 1 none] } : State).withFault .malformedPayload)

/-- R195, R276: on a well-formed tree and any source DECODE ends: terminated, or with one of its two faults. -/
def Obligations.DecodeAlwaysEnds : Prop :=
  ∀ (s : State) (src : Source) (snk : Sink), s.ready → s.status.treeValid = true → s.treeOk = true →
    s.source = some src → s.sink = some snk → snk.closed = false →
    ∃ t, exec .decode s = .next t ∧
      ((t.ready ∧ t.status.dstate = .terminated) ∨
        (t.status.faulted = true ∧ (t.err = some .malformedPayload ∨ t.err = some .degenerateTree)))

/-! ### The macros -/

/-- R109, R201, R202: a macro behaves as the commands it stands for, issued one after the other and stopped at the first fault. -/
def Obligations.MacrosAreTheirSequences : Prop :=
  ∀ s : State, s.status.faulted = false → s.seq = [] →
    exec .compress s = execAll [.count, .build, .gencode, .wrmagic, .wrhdr, .encode] s ∧
    exec .decompress s = execAll [.rdmagic, .rdhdr, .decode] s

/-- R201, R245, R93, R265, R266: COMPRESS on every input whose counts fit. It writes the magic and the tree of the bytes it counted,
rewinds, and writes the codes of the bytes it then reads. If all of those have a code (they do when the source stood at its start
and the input is unchanged) it adds the sentinel's code and does not fault; at the first one that has none it raises `E_NO_CODE`. How a changed input is held is
the model's choice, log entry 17. -/
def Obligations.CompressWritesStream : Prop :=
  ∀ (s : State) (src : Source) (snk : Sink), s.ready → s.source = some src → s.sink = some snk → snk.closed = false →
    (∀ k < 256, src.bytes.count k ≤ 2 ^ s.cntW - 1) →
    ∃ t T, exec .compress s = .next t ∧ t.tree = some T ∧ t.builtOk = true ∧ t.codesOk = true ∧
      t.cntW = s.cntW ∧ t.cur = s.cur ∧ t.host = s.host ∧ t.readout = s.readout ∧
      ((∀ b ∈ src.rewound.bytes, hasLeaf src.bytes b) → t.ready ∧
        t.status = { s.status with freqValid := true, treeValid := true, treeBuilt := true, codeValid := true } ∧
        t.source = some { src.rewound with pos := 8 * src.rewound.bytes.length, eos := true } ∧
        t.sink = some { snk with
          out := snk.out ++ bitsOf 32 0xFACE8201 ++ T.hdr ++ t.payload src.rewound.bytes ++ codeBits (t.codeAt 256) }) ∧
      (src.pos = 0 → src.eos = false → src.rescan = none → ∀ b ∈ src.rewound.bytes, hasLeaf src.bytes b) ∧
      ∀ pre v post, src.rewound.bytes = pre ++ v :: post → (∀ b ∈ pre, hasLeaf src.bytes b) → ¬ hasLeaf src.bytes v →
        t.err = some .noCode ∧
        t.status = { s.status with
          freqValid := true, treeValid := true, treeBuilt := true, codeValid := true, faulted := true } ∧
        t.source = some { src.rewound with pos := 8 * (pre.length + 1) } ∧
        t.sink = some { snk with out := snk.out ++ bitsOf 32 0xFACE8201 ++ T.hdr ++ t.payload pre }

/-- R202: DECOMPRESS checks the magic, reads the tree and decodes the payload up to the sentinel. -/
def Obligations.DecompressReadsStream : Prop :=
  ∀ (s : State) (src : Source) (snk : Sink) (l r : HTree) (ms : List (Sym × Bits)) (q rest : Bits),
    s.ready → s.source = some src → src.eos = false → s.sink = some snk → snk.closed = false →
    (HTree.node l r).size ≤ 513 →
    (∀ m ∈ ms, m ∈ (HTree.node l r).codes [] ∧ m.1 ≠ 256) → (256, q) ∈ (HTree.node l r).codes [] →
    src.bits.drop src.pos = bitsOf 32 0xFACE8201 ++ (HTree.node l r).hdr ++ pathBits ms ++ q ++ rest →
    ∃ t, exec .decompress s = .next t ∧ t.ready ∧
      t.status = { s.status with treeValid := true, treeBuilt := false, codeValid := false, dstate := .terminated } ∧
      t.tree = some (.node l r) ∧
      t.source = some { src with
        pos := src.pos + (bitsOf 32 0xFACE8201 ++ (HTree.node l r).hdr ++ pathBits ms ++ q).length } ∧
      t.sink = some { snk with out := snk.out ++ symbolBits ms } ∧
      t.freq = s.freq ∧ t.code = s.code ∧ t.cntW = s.cntW ∧ t.host = s.host ∧ t.readout = s.readout

/-- R202, R222: on a wrong magic the tree and the payload are never parsed. -/
def Obligations.WrongMagicEndsDecompress : Prop :=
  ∀ (s : State) (src : Source), s.ready → s.source = some src →
    (src.eos = true ∨ (src.bits.drop src.pos).take 32 ≠ bitsOf 32 0xFACE8201) →
    ∃ t, exec .decompress s = .next t ∧ t.err = some .illegalHeader ∧ t.status = { s.status with faulted := true } ∧
      t.node = s.node ∧ t.nalloc = s.nalloc ∧ t.root = s.root ∧ t.freq = s.freq ∧ t.code = s.code ∧ t.cur = s.cur ∧
      t.sink = s.sink ∧ ∃ got, t.trace = s.trace ++ [.srcRead 32 got]

/-- R196: for every byte string whose counts fit, whatever the pad bits, decompressing the compressed stream gives the bytes
back and neither run faults. -/
def Obligations.RoundTrip : Prop :=
  ∀ (s : State) (bytes : List (BitVec 8)) (pad : BitVec 7), s.ready →
    s.source = some { bits := bitsOfBytes bytes, pos := 0, eos := false, rescan := none } →
    s.sink = some { out := [], closed := false } →
    (∀ b, bytes.count b ≤ 2 ^ s.cntW - 1) →
    ∃ t u z v w,
      exec .compress s = .next t ∧ t.ready ∧ sinkClose pad t = .next u ∧
      u.sink = some { out := z, closed := true } ∧ z.length % 8 = 0 ∧
      andThen (bindSource z u) bindSink = .next v ∧ exec .decompress v = .next w ∧ w.ready ∧
      w.sink = some { out := bitsOfBytes bytes, closed := false }

/-- R235: a stream made by COMPRESS without a fault and cut to its first `k` bits: which fault DECOMPRESS raises tells where the cut
is. -/
def Obligations.CutStreamFaultsByPlace : Prop :=
  ∀ (s t v : State) (T : HTree) (z : Bits) (k : Nat), s.ready → s.sink = some { out := [], closed := false } →
    exec .compress s = .next t → t.ready → t.tree = some T → t.sink = some { out := z, closed := false } →
    v.ready → v.source = some { bits := z.take k, pos := 0, eos := false, rescan := none } →
    v.sink = some { out := [], closed := false } →
    T.hdr.length = 11 * T.syms.length - 1 ∧ ∃ w, exec .decompress v = .next w ∧
      w.err = (if k < 32 then some .illegalHeader
        else if k < 32 + T.hdr.length then some .malformedTree
        else if k < z.length then some .malformedPayload
        else none)

/-! ### Whole-machine rules -/

/-- R42, R60, R62, R63, R69, R72, R266: no instruction changes `CNT_W` or what is the host's, binds or closes a port, or takes a bit
off `OUT`; port transactions are only added. `POS` never goes down and `IN` never changes, but for the rewind of ENCODE and
COMPRESS; how a changed input is held is the model's choice, log entry 17. -/
def Obligations.PortsChangeOnlyByTheirRules : Prop :=
  ∀ (i : Instr) (s t : State), exec i s = .next t →
    t.cntW = s.cntW ∧ t.host = s.host ∧ t.readout = s.readout ∧ s.trace <+: t.trace ∧
      t.source.isSome = s.source.isSome ∧ t.sink.isSome = s.sink.isSome ∧
      (∀ a b, s.sink = some a → t.sink = some b → b.closed = a.closed ∧ a.out <+: b.out) ∧
      ∀ a b, s.source = some a → t.source = some b →
        (b.bits = a.bits ∧ b.rescan = a.rescan ∧ a.pos ≤ b.pos) ∨
          ((i = .encode ∨ i = .compress) ∧ b.bits = a.rescan.getD a.bits ∧ b.rescan = none)

/-- R21 to R24, R30, R32, R35, R36, R39, R200, R205, R221: which instructions may write each array and register but scratch, which may
set and which may clear each validity flag, and which faults each may raise. That CLEAR is not among the writers of `ROOT` and `CUR`,
which R45 and R260 leave unspecified after it, is the model's choice, log entry 20. -/
def Obligations.WritersOfNonScratchState : Prop :=
  ∀ (i : Instr) (s t : State), exec i s = .next t →
    (t.freq = s.freq ∨ i = .count ∨ i = .compress) ∧
    (t.code = s.code ∨ i = .gencode ∨ i = .compress) ∧
    (t.pq = s.pq ∨ i = .build ∨ i = .compress ∨ i = .clear) ∧
    (t.cur = s.cur ∨ i = .decode ∨ i = .decompress) ∧
    (t.status.dstate = s.status.dstate ∨ i = .decode ∨ i = .decompress ∨ i = .clear) ∧
    ((t.node = s.node ∧ t.root = s.root) ∨ i = .build ∨ i = .compress ∨ i = .rdhdr ∨ i = .decompress ∨ i = .wInode ∨
      ∃ sym, i = .wLeaf sym) ∧
    (t.nalloc = s.nalloc ∨ i = .build ∨ i = .compress ∨ i = .rdhdr ∨ i = .decompress ∨ i = .wInode ∨ i = .clear ∨
      ∃ sym, i = .wLeaf sym) ∧
    (t.status.freqValid = true → s.status.freqValid = true ∨ i = .count ∨ i = .compress) ∧
    (s.status.freqValid = true → t.status.freqValid = true ∨ i = .count ∨ i = .compress ∨ i = .clear) ∧
    (t.status.treeValid = true → s.status.treeValid = true ∨ i = .build ∨ i = .rdhdr ∨ i = .compress ∨ i = .decompress ∨
      ∃ sym, i = .wLeaf sym) ∧
    (s.status.treeValid = true → t.status.treeValid = true ∨ i = .count ∨ i = .build ∨ i = .rdhdr ∨ i = .compress ∨
      i = .decompress ∨ i = .clear) ∧
    (t.status.treeBuilt = true → s.status.treeBuilt = true ∨ i = .build ∨ i = .compress) ∧
    (s.status.treeBuilt = true → t.status.treeBuilt = true ∨ i = .count ∨ i = .build ∨ i = .rdhdr ∨ i = .compress ∨
      i = .decompress ∨ i = .clear) ∧
    (t.status.codeValid = true → s.status.codeValid = true ∨ i = .gencode ∨ i = .compress) ∧
    (s.status.codeValid = true → t.status.codeValid = true ∨ i = .count ∨ i = .build ∨ i = .rdhdr ∨ i = .gencode ∨
      i = .compress ∨ i = .decompress ∨ i = .clear) ∧
    (t.status.faulted = true → s.status.faulted = true ∨ faultsOf i ≠ []) ∧
    (s.status.faulted = true → t.status.faulted = true ∨ i = .clear) ∧
    ∀ e, (t.err = some e → s.err = some e ∨ e ∈ faultsOf i) ∧ (s.err = some e → t.err = some e ∨ i = .clear)

/-- R31, R35, R37, R40 hold right after reset, with nothing bound and nothing running. -/
def Obligations.ResetStateIsOk : Prop := State.reset.ok = true

/-- R8, R22, R24, R30, R38, R41, R60: every step keeps `FAULTED` and `ERR` together, `TREE_BUILT` under `TREE_VALID`, `NALLOC` in
range, `PQ` and `STK` within their capacities, `POS` in the stream and `CNT_W` positive, in the middle of an operation too. That `PQ`
and `STK` are lists is the model's form, log entry 5. -/
def Obligations.StepKeepsRegistersOk : Prop :=
  ∀ s t : State, s.registersOk = true → step s = .next t → t.registersOk = true

/-- R31, R35, R37, R40, R205: every step from rest leads to rest and keeps every validity flag true to what it vouches for. -/
def Obligations.StepKeepsFlagsTrue : Prop :=
  ∀ s t : State, s.ok = true → step s = .next t → t.ok = true

/-- R46, R80, R276: from a state whose flags are true, with the ports bound, every command completes, and with its flags
true. -/
def Obligations.EveryCommandCompletes : Prop :=
  ∀ (i : Instr) (s : State) (src : Source) (snk : Sink), isCommand i = true → s.ok = true → s.source = some src →
    s.sink = some snk → snk.closed = false → ∃ t, exec i s = .next t ∧ t.ok = true

/-- R44, R46, R261: no command reads unwritten or scratch state: from two states that differ in nothing else the outcomes
differ in nothing else. -/
def Obligations.UnwrittenStateIsNeverRead : Prop :=
  ∀ (i : Instr) (s t : State), isCommand i = true → s.alike t → outcomeAlike (exec i s) (exec i t)
end

