-- ==== Sys2Proof/Laws/Bits.lean ====
section
/-! SUPPORT. Bit strings and numbers (00_scope.md R12): `intOf` and `bitsOf` are inverse on strings of a given length. -/

namespace Sys2Proof

@[simp] theorem bitsOf_length (n v : Nat) : (bitsOf n v).length = n := by
  induction n with
  | zero => rfl
  | succ n ih => simp [bitsOf, ih]

@[simp] theorem bitsOf_zero (v : Nat) : bitsOf 0 v = [] := rfl

theorem bitsOf_succ (n v : Nat) : bitsOf (n + 1) v = v.testBit n :: bitsOf n v := rfl

@[simp] theorem intOf_nil : intOf [] = 0 := rfl

theorem foldl_intOf (p : Bits) (a : Nat) :
    p.foldl (fun n b => 2 * n + b.toNat) a = a * 2 ^ p.length + intOf p := by
  induction p generalizing a with
  | nil => simp
  | cons b p ih =>
    simp only [intOf, List.foldl_cons, List.length_cons]
    rw [ih, ih (2 * 0 + b.toNat), pow_succ]
    ring

theorem intOf_cons (b : Bool) (p : Bits) : intOf (b :: p) = b.toNat * 2 ^ p.length + intOf p := by
  simpa [intOf] using foldl_intOf p b.toNat

theorem intOf_append (p q : Bits) : intOf (p ++ q) = intOf p * 2 ^ q.length + intOf q := by
  simpa [intOf, List.foldl_append] using foldl_intOf q (intOf p)

theorem intOf_lt (p : Bits) : intOf p < 2 ^ p.length := by
  induction p with
  | nil => simp
  | cons b p ih =>
    rw [intOf_cons, List.length_cons, pow_succ]
    cases b <;> simp <;> omega

/-- `int(bits_n(v)) = low_n(v)`. -/
theorem intOf_bitsOf (n v : Nat) : intOf (bitsOf n v) = v % 2 ^ n := by
  induction n with
  | zero => simp [Nat.mod_one]
  | succ n ih =>
    rw [bitsOf_succ, intOf_cons, ih, bitsOf_length, Nat.mod_pow_succ, Nat.toNat_testBit]
    ring

theorem bitsOf_congr {n v w : Nat} (h : ∀ i < n, v.testBit i = w.testBit i) : bitsOf n v = bitsOf n w := by
  induction n with
  | zero => rfl
  | succ n ih => rw [bitsOf_succ, bitsOf_succ, h n (by omega), ih fun i hi => h i (by omega)]

/-- Only the low `n` bits matter (R12, R64). -/
theorem bitsOf_mod (n v : Nat) : bitsOf n (v % 2 ^ n) = bitsOf n v :=
  bitsOf_congr fun i hi => by simp [Nat.testBit_mod_two_pow, hi]

/-- `bits_{|p|}(int(p)) = p`. -/
theorem bitsOf_intOf (p : Bits) : bitsOf p.length (intOf p) = p := by
  induction p with
  | nil => rfl
  | cons b p ih =>
    rw [List.length_cons, bitsOf_succ]
    have low : bitsOf p.length (intOf (b :: p)) = p := by
      rw [← bitsOf_mod, intOf_cons, Nat.mul_add_mod_self_right, Nat.mod_eq_of_lt (intOf_lt p), ih]
    rw [low, intOf_cons]
    have top : (b.toNat * 2 ^ p.length + intOf p).testBit p.length = b := by
      rw [Nat.mul_comm, Nat.testBit_two_pow_mul_add _ (intOf_lt p)]
      cases b <;> simp
    rw [top]

/-- The first bits of `bits_{m+n}(v)` are the high ones. -/
theorem bitsOf_add (m n v : Nat) : bitsOf (m + n) v = bitsOf m (v / 2 ^ n) ++ bitsOf n v := by
  induction m with
  | zero => simp
  | succ m ih =>
    rw [Nat.add_right_comm, bitsOf_succ, bitsOf_succ, ih, List.cons_append, Nat.testBit_div_two_pow]

@[simp] theorem bitsOf_one (b : Bool) : bitsOf 1 b.toNat = [b] := by cases b <;> rfl

end Sys2Proof
end

