-- ==== Sys2Proof/Laws/State.lean ====
section
/-! SUPPORT. One lemma per field per update of the state: what each named update leaves in each field. -/

namespace Sys2Proof.Machine

/-! ### invalidateFreq -/

@[simp] theorem invalidateFreq_cntW (s : State) : s.invalidateFreq.cntW = s.cntW := rfl
@[simp] theorem invalidateFreq_root (s : State) : s.invalidateFreq.root = s.root := rfl
@[simp] theorem invalidateFreq_nalloc (s : State) : s.invalidateFreq.nalloc = s.nalloc := rfl
@[simp] theorem invalidateFreq_cur (s : State) : s.invalidateFreq.cur = s.cur := rfl
@[simp] theorem invalidateFreq_status (s : State) :
    s.invalidateFreq.status = { s.status with freqValid := false, treeValid := false, treeBuilt := false, codeValid := false } := rfl
@[simp] theorem invalidateFreq_err (s : State) : s.invalidateFreq.err = s.err := rfl
@[simp] theorem invalidateFreq_freq (s : State) : s.invalidateFreq.freq = s.freq := rfl
@[simp] theorem invalidateFreq_node (s : State) : s.invalidateFreq.node = s.node := rfl
@[simp] theorem invalidateFreq_pq (s : State) : s.invalidateFreq.pq = s.pq := rfl
@[simp] theorem invalidateFreq_code (s : State) : s.invalidateFreq.code = s.code := rfl
@[simp] theorem invalidateFreq_scratch (s : State) : s.invalidateFreq.scratch = s.scratch := rfl
@[simp] theorem invalidateFreq_activity (s : State) : s.invalidateFreq.activity = s.activity := rfl
@[simp] theorem invalidateFreq_seq (s : State) : s.invalidateFreq.seq = s.seq := rfl
@[simp] theorem invalidateFreq_source (s : State) : s.invalidateFreq.source = s.source := rfl
@[simp] theorem invalidateFreq_sink (s : State) : s.invalidateFreq.sink = s.sink := rfl
@[simp] theorem invalidateFreq_host (s : State) : s.invalidateFreq.host = s.host := rfl
@[simp] theorem invalidateFreq_readout (s : State) : s.invalidateFreq.readout = s.readout := rfl
@[simp] theorem invalidateFreq_trace (s : State) : s.invalidateFreq.trace = s.trace := rfl
@[simp] theorem invalidateFreq_draws (s : State) : s.invalidateFreq.draws = s.draws := rfl

/-! ### invalidateTree -/

@[simp] theorem invalidateTree_cntW (s : State) : s.invalidateTree.cntW = s.cntW := rfl
@[simp] theorem invalidateTree_root (s : State) : s.invalidateTree.root = s.root := rfl
@[simp] theorem invalidateTree_nalloc (s : State) : s.invalidateTree.nalloc = s.nalloc := rfl
@[simp] theorem invalidateTree_cur (s : State) : s.invalidateTree.cur = s.cur := rfl
@[simp] theorem invalidateTree_status (s : State) :
    s.invalidateTree.status = { s.status with treeValid := false, treeBuilt := false, codeValid := false } := rfl
@[simp] theorem invalidateTree_err (s : State) : s.invalidateTree.err = s.err := rfl
@[simp] theorem invalidateTree_freq (s : State) : s.invalidateTree.freq = s.freq := rfl
@[simp] theorem invalidateTree_node (s : State) : s.invalidateTree.node = s.node := rfl
@[simp] theorem invalidateTree_pq (s : State) : s.invalidateTree.pq = s.pq := rfl
@[simp] theorem invalidateTree_code (s : State) : s.invalidateTree.code = s.code := rfl
@[simp] theorem invalidateTree_scratch (s : State) : s.invalidateTree.scratch = s.scratch := rfl
@[simp] theorem invalidateTree_activity (s : State) : s.invalidateTree.activity = s.activity := rfl
@[simp] theorem invalidateTree_seq (s : State) : s.invalidateTree.seq = s.seq := rfl
@[simp] theorem invalidateTree_source (s : State) : s.invalidateTree.source = s.source := rfl
@[simp] theorem invalidateTree_sink (s : State) : s.invalidateTree.sink = s.sink := rfl
@[simp] theorem invalidateTree_host (s : State) : s.invalidateTree.host = s.host := rfl
@[simp] theorem invalidateTree_readout (s : State) : s.invalidateTree.readout = s.readout := rfl
@[simp] theorem invalidateTree_trace (s : State) : s.invalidateTree.trace = s.trace := rfl
@[simp] theorem invalidateTree_draws (s : State) : s.invalidateTree.draws = s.draws := rfl

/-! ### invalidateCode -/

@[simp] theorem invalidateCode_cntW (s : State) : s.invalidateCode.cntW = s.cntW := rfl
@[simp] theorem invalidateCode_root (s : State) : s.invalidateCode.root = s.root := rfl
@[simp] theorem invalidateCode_nalloc (s : State) : s.invalidateCode.nalloc = s.nalloc := rfl
@[simp] theorem invalidateCode_cur (s : State) : s.invalidateCode.cur = s.cur := rfl
@[simp] theorem invalidateCode_status (s : State) : s.invalidateCode.status = { s.status with codeValid := false } := rfl
@[simp] theorem invalidateCode_err (s : State) : s.invalidateCode.err = s.err := rfl
@[simp] theorem invalidateCode_freq (s : State) : s.invalidateCode.freq = s.freq := rfl
@[simp] theorem invalidateCode_node (s : State) : s.invalidateCode.node = s.node := rfl
@[simp] theorem invalidateCode_pq (s : State) : s.invalidateCode.pq = s.pq := rfl
@[simp] theorem invalidateCode_code (s : State) : s.invalidateCode.code = s.code := rfl
@[simp] theorem invalidateCode_scratch (s : State) : s.invalidateCode.scratch = s.scratch := rfl
@[simp] theorem invalidateCode_activity (s : State) : s.invalidateCode.activity = s.activity := rfl
@[simp] theorem invalidateCode_seq (s : State) : s.invalidateCode.seq = s.seq := rfl
@[simp] theorem invalidateCode_source (s : State) : s.invalidateCode.source = s.source := rfl
@[simp] theorem invalidateCode_sink (s : State) : s.invalidateCode.sink = s.sink := rfl
@[simp] theorem invalidateCode_host (s : State) : s.invalidateCode.host = s.host := rfl
@[simp] theorem invalidateCode_readout (s : State) : s.invalidateCode.readout = s.readout := rfl
@[simp] theorem invalidateCode_trace (s : State) : s.invalidateCode.trace = s.trace := rfl
@[simp] theorem invalidateCode_draws (s : State) : s.invalidateCode.draws = s.draws := rfl

/-! ### validateFreq -/

@[simp] theorem validateFreq_cntW (s : State) : s.validateFreq.cntW = s.cntW := rfl
@[simp] theorem validateFreq_root (s : State) : s.validateFreq.root = s.root := rfl
@[simp] theorem validateFreq_nalloc (s : State) : s.validateFreq.nalloc = s.nalloc := rfl
@[simp] theorem validateFreq_cur (s : State) : s.validateFreq.cur = s.cur := rfl
@[simp] theorem validateFreq_status (s : State) : s.validateFreq.status = { s.status with freqValid := true } := rfl
@[simp] theorem validateFreq_err (s : State) : s.validateFreq.err = s.err := rfl
@[simp] theorem validateFreq_freq (s : State) : s.validateFreq.freq = s.freq := rfl
@[simp] theorem validateFreq_node (s : State) : s.validateFreq.node = s.node := rfl
@[simp] theorem validateFreq_pq (s : State) : s.validateFreq.pq = s.pq := rfl
@[simp] theorem validateFreq_code (s : State) : s.validateFreq.code = s.code := rfl
@[simp] theorem validateFreq_scratch (s : State) : s.validateFreq.scratch = s.scratch := rfl
@[simp] theorem validateFreq_activity (s : State) : s.validateFreq.activity = s.activity := rfl
@[simp] theorem validateFreq_seq (s : State) : s.validateFreq.seq = s.seq := rfl
@[simp] theorem validateFreq_source (s : State) : s.validateFreq.source = s.source := rfl
@[simp] theorem validateFreq_sink (s : State) : s.validateFreq.sink = s.sink := rfl
@[simp] theorem validateFreq_host (s : State) : s.validateFreq.host = s.host := rfl
@[simp] theorem validateFreq_readout (s : State) : s.validateFreq.readout = s.readout := rfl
@[simp] theorem validateFreq_trace (s : State) : s.validateFreq.trace = s.trace := rfl
@[simp] theorem validateFreq_draws (s : State) : s.validateFreq.draws = s.draws := rfl

/-! ### validateBuiltTree -/

@[simp] theorem validateBuiltTree_cntW (s : State) : s.validateBuiltTree.cntW = s.cntW := rfl
@[simp] theorem validateBuiltTree_root (s : State) : s.validateBuiltTree.root = s.root := rfl
@[simp] theorem validateBuiltTree_nalloc (s : State) : s.validateBuiltTree.nalloc = s.nalloc := rfl
@[simp] theorem validateBuiltTree_cur (s : State) : s.validateBuiltTree.cur = s.cur := rfl
@[simp] theorem validateBuiltTree_status (s : State) :
    s.validateBuiltTree.status = { s.status with treeValid := true, treeBuilt := true } := rfl
@[simp] theorem validateBuiltTree_err (s : State) : s.validateBuiltTree.err = s.err := rfl
@[simp] theorem validateBuiltTree_freq (s : State) : s.validateBuiltTree.freq = s.freq := rfl
@[simp] theorem validateBuiltTree_node (s : State) : s.validateBuiltTree.node = s.node := rfl
@[simp] theorem validateBuiltTree_pq (s : State) : s.validateBuiltTree.pq = s.pq := rfl
@[simp] theorem validateBuiltTree_code (s : State) : s.validateBuiltTree.code = s.code := rfl
@[simp] theorem validateBuiltTree_scratch (s : State) : s.validateBuiltTree.scratch = s.scratch := rfl
@[simp] theorem validateBuiltTree_activity (s : State) : s.validateBuiltTree.activity = s.activity := rfl
@[simp] theorem validateBuiltTree_seq (s : State) : s.validateBuiltTree.seq = s.seq := rfl
@[simp] theorem validateBuiltTree_source (s : State) : s.validateBuiltTree.source = s.source := rfl
@[simp] theorem validateBuiltTree_sink (s : State) : s.validateBuiltTree.sink = s.sink := rfl
@[simp] theorem validateBuiltTree_host (s : State) : s.validateBuiltTree.host = s.host := rfl
@[simp] theorem validateBuiltTree_readout (s : State) : s.validateBuiltTree.readout = s.readout := rfl
@[simp] theorem validateBuiltTree_trace (s : State) : s.validateBuiltTree.trace = s.trace := rfl
@[simp] theorem validateBuiltTree_draws (s : State) : s.validateBuiltTree.draws = s.draws := rfl

/-! ### validateReadTree -/

@[simp] theorem validateReadTree_cntW (s : State) : s.validateReadTree.cntW = s.cntW := rfl
@[simp] theorem validateReadTree_root (s : State) : s.validateReadTree.root = s.root := rfl
@[simp] theorem validateReadTree_nalloc (s : State) : s.validateReadTree.nalloc = s.nalloc := rfl
@[simp] theorem validateReadTree_cur (s : State) : s.validateReadTree.cur = s.cur := rfl
@[simp] theorem validateReadTree_status (s : State) : s.validateReadTree.status = { s.status with treeValid := true } := rfl
@[simp] theorem validateReadTree_err (s : State) : s.validateReadTree.err = s.err := rfl
@[simp] theorem validateReadTree_freq (s : State) : s.validateReadTree.freq = s.freq := rfl
@[simp] theorem validateReadTree_node (s : State) : s.validateReadTree.node = s.node := rfl
@[simp] theorem validateReadTree_pq (s : State) : s.validateReadTree.pq = s.pq := rfl
@[simp] theorem validateReadTree_code (s : State) : s.validateReadTree.code = s.code := rfl
@[simp] theorem validateReadTree_scratch (s : State) : s.validateReadTree.scratch = s.scratch := rfl
@[simp] theorem validateReadTree_activity (s : State) : s.validateReadTree.activity = s.activity := rfl
@[simp] theorem validateReadTree_seq (s : State) : s.validateReadTree.seq = s.seq := rfl
@[simp] theorem validateReadTree_source (s : State) : s.validateReadTree.source = s.source := rfl
@[simp] theorem validateReadTree_sink (s : State) : s.validateReadTree.sink = s.sink := rfl
@[simp] theorem validateReadTree_host (s : State) : s.validateReadTree.host = s.host := rfl
@[simp] theorem validateReadTree_readout (s : State) : s.validateReadTree.readout = s.readout := rfl
@[simp] theorem validateReadTree_trace (s : State) : s.validateReadTree.trace = s.trace := rfl
@[simp] theorem validateReadTree_draws (s : State) : s.validateReadTree.draws = s.draws := rfl

/-! ### validateCode -/

@[simp] theorem validateCode_cntW (s : State) : s.validateCode.cntW = s.cntW := rfl
@[simp] theorem validateCode_root (s : State) : s.validateCode.root = s.root := rfl
@[simp] theorem validateCode_nalloc (s : State) : s.validateCode.nalloc = s.nalloc := rfl
@[simp] theorem validateCode_cur (s : State) : s.validateCode.cur = s.cur := rfl
@[simp] theorem validateCode_status (s : State) : s.validateCode.status = { s.status with codeValid := true } := rfl
@[simp] theorem validateCode_err (s : State) : s.validateCode.err = s.err := rfl
@[simp] theorem validateCode_freq (s : State) : s.validateCode.freq = s.freq := rfl
@[simp] theorem validateCode_node (s : State) : s.validateCode.node = s.node := rfl
@[simp] theorem validateCode_pq (s : State) : s.validateCode.pq = s.pq := rfl
@[simp] theorem validateCode_code (s : State) : s.validateCode.code = s.code := rfl
@[simp] theorem validateCode_scratch (s : State) : s.validateCode.scratch = s.scratch := rfl
@[simp] theorem validateCode_activity (s : State) : s.validateCode.activity = s.activity := rfl
@[simp] theorem validateCode_seq (s : State) : s.validateCode.seq = s.seq := rfl
@[simp] theorem validateCode_source (s : State) : s.validateCode.source = s.source := rfl
@[simp] theorem validateCode_sink (s : State) : s.validateCode.sink = s.sink := rfl
@[simp] theorem validateCode_host (s : State) : s.validateCode.host = s.host := rfl
@[simp] theorem validateCode_readout (s : State) : s.validateCode.readout = s.readout := rfl
@[simp] theorem validateCode_trace (s : State) : s.validateCode.trace = s.trace := rfl
@[simp] theorem validateCode_draws (s : State) : s.validateCode.draws = s.draws := rfl

/-! ### setDState -/

@[simp] theorem setDState_cntW (d : DState) (s : State) : (s.setDState d).cntW = s.cntW := rfl
@[simp] theorem setDState_root (d : DState) (s : State) : (s.setDState d).root = s.root := rfl
@[simp] theorem setDState_nalloc (d : DState) (s : State) : (s.setDState d).nalloc = s.nalloc := rfl
@[simp] theorem setDState_cur (d : DState) (s : State) : (s.setDState d).cur = s.cur := rfl
@[simp] theorem setDState_status (d : DState) (s : State) : (s.setDState d).status = { s.status with dstate := d } := rfl
@[simp] theorem setDState_err (d : DState) (s : State) : (s.setDState d).err = s.err := rfl
@[simp] theorem setDState_freq (d : DState) (s : State) : (s.setDState d).freq = s.freq := rfl
@[simp] theorem setDState_node (d : DState) (s : State) : (s.setDState d).node = s.node := rfl
@[simp] theorem setDState_pq (d : DState) (s : State) : (s.setDState d).pq = s.pq := rfl
@[simp] theorem setDState_code (d : DState) (s : State) : (s.setDState d).code = s.code := rfl
@[simp] theorem setDState_scratch (d : DState) (s : State) : (s.setDState d).scratch = s.scratch := rfl
@[simp] theorem setDState_activity (d : DState) (s : State) : (s.setDState d).activity = s.activity := rfl
@[simp] theorem setDState_seq (d : DState) (s : State) : (s.setDState d).seq = s.seq := rfl
@[simp] theorem setDState_source (d : DState) (s : State) : (s.setDState d).source = s.source := rfl
@[simp] theorem setDState_sink (d : DState) (s : State) : (s.setDState d).sink = s.sink := rfl
@[simp] theorem setDState_host (d : DState) (s : State) : (s.setDState d).host = s.host := rfl
@[simp] theorem setDState_readout (d : DState) (s : State) : (s.setDState d).readout = s.readout := rfl
@[simp] theorem setDState_trace (d : DState) (s : State) : (s.setDState d).trace = s.trace := rfl
@[simp] theorem setDState_draws (d : DState) (s : State) : (s.setDState d).draws = s.draws := rfl

/-! ### freeScratch -/

@[simp] theorem freeScratch_cntW (s : State) : s.freeScratch.cntW = s.cntW := rfl
@[simp] theorem freeScratch_root (s : State) : s.freeScratch.root = s.root := rfl
@[simp] theorem freeScratch_nalloc (s : State) : s.freeScratch.nalloc = s.nalloc := rfl
@[simp] theorem freeScratch_cur (s : State) : s.freeScratch.cur = s.cur := rfl
@[simp] theorem freeScratch_status (s : State) : s.freeScratch.status = s.status := rfl
@[simp] theorem freeScratch_err (s : State) : s.freeScratch.err = s.err := rfl
@[simp] theorem freeScratch_freq (s : State) : s.freeScratch.freq = s.freq := rfl
@[simp] theorem freeScratch_node (s : State) : s.freeScratch.node = s.node := rfl
@[simp] theorem freeScratch_pq (s : State) : s.freeScratch.pq = s.pq := rfl
@[simp] theorem freeScratch_code (s : State) : s.freeScratch.code = s.code := rfl
@[simp] theorem freeScratch_scratch (s : State) : s.freeScratch.scratch = freeScratchOf s.cntW s.draws := rfl
@[simp] theorem freeScratch_activity (s : State) : s.freeScratch.activity = s.activity := rfl
@[simp] theorem freeScratch_seq (s : State) : s.freeScratch.seq = s.seq := rfl
@[simp] theorem freeScratch_source (s : State) : s.freeScratch.source = s.source := rfl
@[simp] theorem freeScratch_sink (s : State) : s.freeScratch.sink = s.sink := rfl
@[simp] theorem freeScratch_host (s : State) : s.freeScratch.host = s.host := rfl
@[simp] theorem freeScratch_readout (s : State) : s.freeScratch.readout = s.readout := rfl
@[simp] theorem freeScratch_trace (s : State) : s.freeScratch.trace = s.trace := rfl
@[simp] theorem freeScratch_draws (s : State) : s.freeScratch.draws = s.draws + 1 := rfl

/-! ### setFreq -/

@[simp] theorem setFreq_cntW (k n : Nat) (s : State) : (s.setFreq k n).cntW = s.cntW := rfl
@[simp] theorem setFreq_root (k n : Nat) (s : State) : (s.setFreq k n).root = s.root := rfl
@[simp] theorem setFreq_nalloc (k n : Nat) (s : State) : (s.setFreq k n).nalloc = s.nalloc := rfl
@[simp] theorem setFreq_cur (k n : Nat) (s : State) : (s.setFreq k n).cur = s.cur := rfl
@[simp] theorem setFreq_status (k n : Nat) (s : State) : (s.setFreq k n).status = s.status := rfl
@[simp] theorem setFreq_err (k n : Nat) (s : State) : (s.setFreq k n).err = s.err := rfl
@[simp] theorem setFreq_freq (k n : Nat) (s : State) : (s.setFreq k n).freq = s.freq.setIfInBounds k n := rfl
@[simp] theorem setFreq_node (k n : Nat) (s : State) : (s.setFreq k n).node = s.node := rfl
@[simp] theorem setFreq_pq (k n : Nat) (s : State) : (s.setFreq k n).pq = s.pq := rfl
@[simp] theorem setFreq_code (k n : Nat) (s : State) : (s.setFreq k n).code = s.code := rfl
@[simp] theorem setFreq_scratch (k n : Nat) (s : State) : (s.setFreq k n).scratch = s.scratch := rfl
@[simp] theorem setFreq_activity (k n : Nat) (s : State) : (s.setFreq k n).activity = s.activity := rfl
@[simp] theorem setFreq_seq (k n : Nat) (s : State) : (s.setFreq k n).seq = s.seq := rfl
@[simp] theorem setFreq_source (k n : Nat) (s : State) : (s.setFreq k n).source = s.source := rfl
@[simp] theorem setFreq_sink (k n : Nat) (s : State) : (s.setFreq k n).sink = s.sink := rfl
@[simp] theorem setFreq_host (k n : Nat) (s : State) : (s.setFreq k n).host = s.host := rfl
@[simp] theorem setFreq_readout (k n : Nat) (s : State) : (s.setFreq k n).readout = s.readout := rfl
@[simp] theorem setFreq_trace (k n : Nat) (s : State) : (s.setFreq k n).trace = s.trace := rfl
@[simp] theorem setFreq_draws (k n : Nat) (s : State) : (s.setFreq k n).draws = s.draws := rfl

/-! ### zeroFreq -/

@[simp] theorem zeroFreq_cntW (s : State) : s.zeroFreq.cntW = s.cntW := rfl
@[simp] theorem zeroFreq_root (s : State) : s.zeroFreq.root = s.root := rfl
@[simp] theorem zeroFreq_nalloc (s : State) : s.zeroFreq.nalloc = s.nalloc := rfl
@[simp] theorem zeroFreq_cur (s : State) : s.zeroFreq.cur = s.cur := rfl
@[simp] theorem zeroFreq_status (s : State) : s.zeroFreq.status = s.status := rfl
@[simp] theorem zeroFreq_err (s : State) : s.zeroFreq.err = s.err := rfl
@[simp] theorem zeroFreq_freq (s : State) : s.zeroFreq.freq = Vector.replicate 257 0 := rfl
@[simp] theorem zeroFreq_node (s : State) : s.zeroFreq.node = s.node := rfl
@[simp] theorem zeroFreq_pq (s : State) : s.zeroFreq.pq = s.pq := rfl
@[simp] theorem zeroFreq_code (s : State) : s.zeroFreq.code = s.code := rfl
@[simp] theorem zeroFreq_scratch (s : State) : s.zeroFreq.scratch = s.scratch := rfl
@[simp] theorem zeroFreq_activity (s : State) : s.zeroFreq.activity = s.activity := rfl
@[simp] theorem zeroFreq_seq (s : State) : s.zeroFreq.seq = s.seq := rfl
@[simp] theorem zeroFreq_source (s : State) : s.zeroFreq.source = s.source := rfl
@[simp] theorem zeroFreq_sink (s : State) : s.zeroFreq.sink = s.sink := rfl
@[simp] theorem zeroFreq_host (s : State) : s.zeroFreq.host = s.host := rfl
@[simp] theorem zeroFreq_readout (s : State) : s.zeroFreq.readout = s.readout := rfl
@[simp] theorem zeroFreq_trace (s : State) : s.zeroFreq.trace = s.trace := rfl
@[simp] theorem zeroFreq_draws (s : State) : s.zeroFreq.draws = s.draws := rfl

/-! ### setNode -/

@[simp] theorem setNode_cntW (i : Idx) (e : NodeEntry) (s : State) : (s.setNode i e).cntW = s.cntW := rfl
@[simp] theorem setNode_root (i : Idx) (e : NodeEntry) (s : State) : (s.setNode i e).root = s.root := rfl
@[simp] theorem setNode_nalloc (i : Idx) (e : NodeEntry) (s : State) : (s.setNode i e).nalloc = s.nalloc := rfl
@[simp] theorem setNode_cur (i : Idx) (e : NodeEntry) (s : State) : (s.setNode i e).cur = s.cur := rfl
@[simp] theorem setNode_status (i : Idx) (e : NodeEntry) (s : State) : (s.setNode i e).status = s.status := rfl
@[simp] theorem setNode_err (i : Idx) (e : NodeEntry) (s : State) : (s.setNode i e).err = s.err := rfl
@[simp] theorem setNode_freq (i : Idx) (e : NodeEntry) (s : State) : (s.setNode i e).freq = s.freq := rfl
@[simp] theorem setNode_node (i : Idx) (e : NodeEntry) (s : State) :
    (s.setNode i e).node = s.node.setIfInBounds i.toNat e := rfl
@[simp] theorem setNode_pq (i : Idx) (e : NodeEntry) (s : State) : (s.setNode i e).pq = s.pq := rfl
@[simp] theorem setNode_code (i : Idx) (e : NodeEntry) (s : State) : (s.setNode i e).code = s.code := rfl
@[simp] theorem setNode_scratch (i : Idx) (e : NodeEntry) (s : State) : (s.setNode i e).scratch = s.scratch := rfl
@[simp] theorem setNode_activity (i : Idx) (e : NodeEntry) (s : State) : (s.setNode i e).activity = s.activity := rfl
@[simp] theorem setNode_seq (i : Idx) (e : NodeEntry) (s : State) : (s.setNode i e).seq = s.seq := rfl
@[simp] theorem setNode_source (i : Idx) (e : NodeEntry) (s : State) : (s.setNode i e).source = s.source := rfl
@[simp] theorem setNode_sink (i : Idx) (e : NodeEntry) (s : State) : (s.setNode i e).sink = s.sink := rfl
@[simp] theorem setNode_host (i : Idx) (e : NodeEntry) (s : State) : (s.setNode i e).host = s.host := rfl
@[simp] theorem setNode_readout (i : Idx) (e : NodeEntry) (s : State) : (s.setNode i e).readout = s.readout := rfl
@[simp] theorem setNode_trace (i : Idx) (e : NodeEntry) (s : State) : (s.setNode i e).trace = s.trace := rfl
@[simp] theorem setNode_draws (i : Idx) (e : NodeEntry) (s : State) : (s.setNode i e).draws = s.draws := rfl

/-! ### allocNode -/

@[simp] theorem allocNode_cntW (upd : NodeEntry → NodeEntry) (s : State) : (s.allocNode upd).cntW = s.cntW := rfl
@[simp] theorem allocNode_root (upd : NodeEntry → NodeEntry) (s : State) : (s.allocNode upd).root = s.root := rfl
@[simp] theorem allocNode_nalloc (upd : NodeEntry → NodeEntry) (s : State) : (s.allocNode upd).nalloc = s.nalloc + 1 := rfl
@[simp] theorem allocNode_cur (upd : NodeEntry → NodeEntry) (s : State) : (s.allocNode upd).cur = s.cur := rfl
@[simp] theorem allocNode_status (upd : NodeEntry → NodeEntry) (s : State) : (s.allocNode upd).status = s.status := rfl
@[simp] theorem allocNode_err (upd : NodeEntry → NodeEntry) (s : State) : (s.allocNode upd).err = s.err := rfl
@[simp] theorem allocNode_freq (upd : NodeEntry → NodeEntry) (s : State) : (s.allocNode upd).freq = s.freq := rfl
@[simp] theorem allocNode_node (upd : NodeEntry → NodeEntry) (s : State) :
    (s.allocNode upd).node = s.node.setIfInBounds s.nalloc.toNat (upd (s.nodeAt s.nalloc)) := rfl
@[simp] theorem allocNode_pq (upd : NodeEntry → NodeEntry) (s : State) : (s.allocNode upd).pq = s.pq := rfl
@[simp] theorem allocNode_code (upd : NodeEntry → NodeEntry) (s : State) : (s.allocNode upd).code = s.code := rfl
@[simp] theorem allocNode_scratch (upd : NodeEntry → NodeEntry) (s : State) : (s.allocNode upd).scratch = s.scratch := rfl
@[simp] theorem allocNode_activity (upd : NodeEntry → NodeEntry) (s : State) : (s.allocNode upd).activity = s.activity := rfl
@[simp] theorem allocNode_seq (upd : NodeEntry → NodeEntry) (s : State) : (s.allocNode upd).seq = s.seq := rfl
@[simp] theorem allocNode_source (upd : NodeEntry → NodeEntry) (s : State) : (s.allocNode upd).source = s.source := rfl
@[simp] theorem allocNode_sink (upd : NodeEntry → NodeEntry) (s : State) : (s.allocNode upd).sink = s.sink := rfl
@[simp] theorem allocNode_host (upd : NodeEntry → NodeEntry) (s : State) : (s.allocNode upd).host = s.host := rfl
@[simp] theorem allocNode_readout (upd : NodeEntry → NodeEntry) (s : State) : (s.allocNode upd).readout = s.readout := rfl
@[simp] theorem allocNode_trace (upd : NodeEntry → NodeEntry) (s : State) : (s.allocNode upd).trace = s.trace := rfl
@[simp] theorem allocNode_draws (upd : NodeEntry → NodeEntry) (s : State) : (s.allocNode upd).draws = s.draws := rfl

/-! ### insertPq -/

@[simp] theorem insertPq_cntW (i : Idx) (s : State) : (s.insertPq i).cntW = s.cntW := rfl
@[simp] theorem insertPq_root (i : Idx) (s : State) : (s.insertPq i).root = s.root := rfl
@[simp] theorem insertPq_nalloc (i : Idx) (s : State) : (s.insertPq i).nalloc = s.nalloc := rfl
@[simp] theorem insertPq_cur (i : Idx) (s : State) : (s.insertPq i).cur = s.cur := rfl
@[simp] theorem insertPq_status (i : Idx) (s : State) : (s.insertPq i).status = s.status := rfl
@[simp] theorem insertPq_err (i : Idx) (s : State) : (s.insertPq i).err = s.err := rfl
@[simp] theorem insertPq_freq (i : Idx) (s : State) : (s.insertPq i).freq = s.freq := rfl
@[simp] theorem insertPq_node (i : Idx) (s : State) : (s.insertPq i).node = s.node := rfl
@[simp] theorem insertPq_pq (i : Idx) (s : State) : (s.insertPq i).pq = s.pq ++ [i] := rfl
@[simp] theorem insertPq_code (i : Idx) (s : State) : (s.insertPq i).code = s.code := rfl
@[simp] theorem insertPq_scratch (i : Idx) (s : State) : (s.insertPq i).scratch = s.scratch := rfl
@[simp] theorem insertPq_activity (i : Idx) (s : State) : (s.insertPq i).activity = s.activity := rfl
@[simp] theorem insertPq_seq (i : Idx) (s : State) : (s.insertPq i).seq = s.seq := rfl
@[simp] theorem insertPq_source (i : Idx) (s : State) : (s.insertPq i).source = s.source := rfl
@[simp] theorem insertPq_sink (i : Idx) (s : State) : (s.insertPq i).sink = s.sink := rfl
@[simp] theorem insertPq_host (i : Idx) (s : State) : (s.insertPq i).host = s.host := rfl
@[simp] theorem insertPq_readout (i : Idx) (s : State) : (s.insertPq i).readout = s.readout := rfl
@[simp] theorem insertPq_trace (i : Idx) (s : State) : (s.insertPq i).trace = s.trace := rfl
@[simp] theorem insertPq_draws (i : Idx) (s : State) : (s.insertPq i).draws = s.draws := rfl

/-! ### dropCodes -/

@[simp] theorem dropCodes_cntW (s : State) : s.dropCodes.cntW = s.cntW := rfl
@[simp] theorem dropCodes_root (s : State) : s.dropCodes.root = s.root := rfl
@[simp] theorem dropCodes_nalloc (s : State) : s.dropCodes.nalloc = s.nalloc := rfl
@[simp] theorem dropCodes_cur (s : State) : s.dropCodes.cur = s.cur := rfl
@[simp] theorem dropCodes_status (s : State) : s.dropCodes.status = s.status := rfl
@[simp] theorem dropCodes_err (s : State) : s.dropCodes.err = s.err := rfl
@[simp] theorem dropCodes_freq (s : State) : s.dropCodes.freq = s.freq := rfl
@[simp] theorem dropCodes_node (s : State) : s.dropCodes.node = s.node := rfl
@[simp] theorem dropCodes_pq (s : State) : s.dropCodes.pq = s.pq := rfl
@[simp] theorem dropCodes_scratch (s : State) : s.dropCodes.scratch = s.scratch := rfl
@[simp] theorem dropCodes_activity (s : State) : s.dropCodes.activity = s.activity := rfl
@[simp] theorem dropCodes_seq (s : State) : s.dropCodes.seq = s.seq := rfl
@[simp] theorem dropCodes_source (s : State) : s.dropCodes.source = s.source := rfl
@[simp] theorem dropCodes_sink (s : State) : s.dropCodes.sink = s.sink := rfl
@[simp] theorem dropCodes_host (s : State) : s.dropCodes.host = s.host := rfl
@[simp] theorem dropCodes_readout (s : State) : s.dropCodes.readout = s.readout := rfl
@[simp] theorem dropCodes_trace (s : State) : s.dropCodes.trace = s.trace := rfl
@[simp] theorem dropCodes_draws (s : State) : s.dropCodes.draws = s.draws := rfl

/-! ### note -/

@[simp] theorem note_cntW (e : PortEvent) (s : State) : (s.note e).cntW = s.cntW := rfl
@[simp] theorem note_root (e : PortEvent) (s : State) : (s.note e).root = s.root := rfl
@[simp] theorem note_nalloc (e : PortEvent) (s : State) : (s.note e).nalloc = s.nalloc := rfl
@[simp] theorem note_cur (e : PortEvent) (s : State) : (s.note e).cur = s.cur := rfl
@[simp] theorem note_status (e : PortEvent) (s : State) : (s.note e).status = s.status := rfl
@[simp] theorem note_err (e : PortEvent) (s : State) : (s.note e).err = s.err := rfl
@[simp] theorem note_freq (e : PortEvent) (s : State) : (s.note e).freq = s.freq := rfl
@[simp] theorem note_node (e : PortEvent) (s : State) : (s.note e).node = s.node := rfl
@[simp] theorem note_pq (e : PortEvent) (s : State) : (s.note e).pq = s.pq := rfl
@[simp] theorem note_code (e : PortEvent) (s : State) : (s.note e).code = s.code := rfl
@[simp] theorem note_scratch (e : PortEvent) (s : State) : (s.note e).scratch = s.scratch := rfl
@[simp] theorem note_activity (e : PortEvent) (s : State) : (s.note e).activity = s.activity := rfl
@[simp] theorem note_seq (e : PortEvent) (s : State) : (s.note e).seq = s.seq := rfl
@[simp] theorem note_source (e : PortEvent) (s : State) : (s.note e).source = s.source := rfl
@[simp] theorem note_sink (e : PortEvent) (s : State) : (s.note e).sink = s.sink := rfl
@[simp] theorem note_host (e : PortEvent) (s : State) : (s.note e).host = s.host := rfl
@[simp] theorem note_readout (e : PortEvent) (s : State) : (s.note e).readout = s.readout := rfl
@[simp] theorem note_trace (e : PortEvent) (s : State) : (s.note e).trace = s.trace ++ [e] := rfl
@[simp] theorem note_draws (e : PortEvent) (s : State) : (s.note e).draws = s.draws := rfl

/-! ### cursorToRoot -/

@[simp] theorem cursorToRoot_cntW (s : State) : s.cursorToRoot.cntW = s.cntW := rfl
@[simp] theorem cursorToRoot_root (s : State) : s.cursorToRoot.root = s.root := rfl
@[simp] theorem cursorToRoot_nalloc (s : State) : s.cursorToRoot.nalloc = s.nalloc := rfl
@[simp] theorem cursorToRoot_cur (s : State) : s.cursorToRoot.cur = s.root := rfl
@[simp] theorem cursorToRoot_status (s : State) : s.cursorToRoot.status = { s.status with dstate := .atRoot } := rfl
@[simp] theorem cursorToRoot_err (s : State) : s.cursorToRoot.err = s.err := rfl
@[simp] theorem cursorToRoot_freq (s : State) : s.cursorToRoot.freq = s.freq := rfl
@[simp] theorem cursorToRoot_node (s : State) : s.cursorToRoot.node = s.node := rfl
@[simp] theorem cursorToRoot_pq (s : State) : s.cursorToRoot.pq = s.pq := rfl
@[simp] theorem cursorToRoot_code (s : State) : s.cursorToRoot.code = s.code := rfl
@[simp] theorem cursorToRoot_scratch (s : State) : s.cursorToRoot.scratch = s.scratch := rfl
@[simp] theorem cursorToRoot_activity (s : State) : s.cursorToRoot.activity = s.activity := rfl
@[simp] theorem cursorToRoot_seq (s : State) : s.cursorToRoot.seq = s.seq := rfl
@[simp] theorem cursorToRoot_source (s : State) : s.cursorToRoot.source = s.source := rfl
@[simp] theorem cursorToRoot_sink (s : State) : s.cursorToRoot.sink = s.sink := rfl
@[simp] theorem cursorToRoot_host (s : State) : s.cursorToRoot.host = s.host := rfl
@[simp] theorem cursorToRoot_readout (s : State) : s.cursorToRoot.readout = s.readout := rfl
@[simp] theorem cursorToRoot_trace (s : State) : s.cursorToRoot.trace = s.trace := rfl
@[simp] theorem cursorToRoot_draws (s : State) : s.cursorToRoot.draws = s.draws := rfl

/-! ### setChildren -/

@[simp] theorem setChildren_cntW (i l r : Idx) (s : State) : (setChildren i l r s).cntW = s.cntW := rfl
@[simp] theorem setChildren_root (i l r : Idx) (s : State) : (setChildren i l r s).root = s.root := rfl
@[simp] theorem setChildren_nalloc (i l r : Idx) (s : State) : (setChildren i l r s).nalloc = s.nalloc := rfl
@[simp] theorem setChildren_cur (i l r : Idx) (s : State) : (setChildren i l r s).cur = s.cur := rfl
@[simp] theorem setChildren_status (i l r : Idx) (s : State) : (setChildren i l r s).status = s.status := rfl
@[simp] theorem setChildren_err (i l r : Idx) (s : State) : (setChildren i l r s).err = s.err := rfl
@[simp] theorem setChildren_freq (i l r : Idx) (s : State) : (setChildren i l r s).freq = s.freq := rfl
@[simp] theorem setChildren_node (i l r : Idx) (s : State) :
    (setChildren i l r s).node = s.node.setIfInBounds i.toNat { s.nodeAt i with left := l, right := r } := rfl
@[simp] theorem setChildren_pq (i l r : Idx) (s : State) : (setChildren i l r s).pq = s.pq := rfl
@[simp] theorem setChildren_code (i l r : Idx) (s : State) : (setChildren i l r s).code = s.code := rfl
@[simp] theorem setChildren_scratch (i l r : Idx) (s : State) : (setChildren i l r s).scratch = s.scratch := rfl
@[simp] theorem setChildren_activity (i l r : Idx) (s : State) : (setChildren i l r s).activity = s.activity := rfl
@[simp] theorem setChildren_seq (i l r : Idx) (s : State) : (setChildren i l r s).seq = s.seq := rfl
@[simp] theorem setChildren_source (i l r : Idx) (s : State) : (setChildren i l r s).source = s.source := rfl
@[simp] theorem setChildren_sink (i l r : Idx) (s : State) : (setChildren i l r s).sink = s.sink := rfl
@[simp] theorem setChildren_host (i l r : Idx) (s : State) : (setChildren i l r s).host = s.host := rfl
@[simp] theorem setChildren_readout (i l r : Idx) (s : State) : (setChildren i l r s).readout = s.readout := rfl
@[simp] theorem setChildren_trace (i l r : Idx) (s : State) : (setChildren i l r s).trace = s.trace := rfl
@[simp] theorem setChildren_draws (i l r : Idx) (s : State) : (setChildren i l r s).draws = s.draws := rfl

/-! ### startMagic -/

@[simp] theorem startMagic_cntW (s : State) : (startMagic s).cntW = s.cntW := rfl
@[simp] theorem startMagic_root (s : State) : (startMagic s).root = s.root := rfl
@[simp] theorem startMagic_nalloc (s : State) : (startMagic s).nalloc = s.nalloc := rfl
@[simp] theorem startMagic_cur (s : State) : (startMagic s).cur = s.cur := rfl
@[simp] theorem startMagic_status (s : State) : (startMagic s).status = s.status := rfl
@[simp] theorem startMagic_err (s : State) : (startMagic s).err = s.err := rfl
@[simp] theorem startMagic_freq (s : State) : (startMagic s).freq = s.freq := rfl
@[simp] theorem startMagic_node (s : State) : (startMagic s).node = s.node := rfl
@[simp] theorem startMagic_pq (s : State) : (startMagic s).pq = s.pq := rfl
@[simp] theorem startMagic_code (s : State) : (startMagic s).code = s.code := rfl
@[simp] theorem startMagic_scratch (s : State) : (startMagic s).scratch = s.scratch := rfl
@[simp] theorem startMagic_activity (s : State) : (startMagic s).activity = .magic := rfl
@[simp] theorem startMagic_seq (s : State) : (startMagic s).seq = s.seq := rfl
@[simp] theorem startMagic_source (s : State) : (startMagic s).source = s.source := rfl
@[simp] theorem startMagic_sink (s : State) : (startMagic s).sink = s.sink := rfl
@[simp] theorem startMagic_host (s : State) : (startMagic s).host = s.host := rfl
@[simp] theorem startMagic_readout (s : State) : (startMagic s).readout = s.readout := rfl
@[simp] theorem startMagic_trace (s : State) : (startMagic s).trace = s.trace := rfl
@[simp] theorem startMagic_draws (s : State) : (startMagic s).draws = s.draws := rfl

/-! ### startTree -/

@[simp] theorem startTree_cntW (s : State) : (startTree s).cntW = s.cntW := rfl
@[simp] theorem startTree_root (s : State) : (startTree s).root = s.root := rfl
@[simp] theorem startTree_nalloc (s : State) : (startTree s).nalloc = 0 := rfl
@[simp] theorem startTree_cur (s : State) : (startTree s).cur = s.cur := rfl
@[simp] theorem startTree_status (s : State) :
    (startTree s).status = { s.status with treeValid := false, treeBuilt := false, codeValid := false } := rfl
@[simp] theorem startTree_err (s : State) : (startTree s).err = s.err := rfl
@[simp] theorem startTree_freq (s : State) : (startTree s).freq = s.freq := rfl
@[simp] theorem startTree_node (s : State) : (startTree s).node = s.node := rfl
@[simp] theorem startTree_pq (s : State) : (startTree s).pq = s.pq := rfl
@[simp] theorem startTree_code (s : State) : (startTree s).code = s.code := rfl
@[simp] theorem startTree_scratch (s : State) : (startTree s).scratch = { s.scratch with stk := [] } := rfl
@[simp] theorem startTree_activity (s : State) : (startTree s).activity = .tree := rfl
@[simp] theorem startTree_seq (s : State) : (startTree s).seq = s.seq := rfl
@[simp] theorem startTree_source (s : State) : (startTree s).source = s.source := rfl
@[simp] theorem startTree_sink (s : State) : (startTree s).sink = s.sink := rfl
@[simp] theorem startTree_host (s : State) : (startTree s).host = s.host := rfl
@[simp] theorem startTree_readout (s : State) : (startTree s).readout = s.readout := rfl
@[simp] theorem startTree_trace (s : State) : (startTree s).trace = s.trace := rfl
@[simp] theorem startTree_draws (s : State) : (startTree s).draws = s.draws := rfl

/-! ### raise -/

@[simp] theorem raise_cntW (e : ErrKind) (s : State) : (raise e s).cntW = s.cntW := rfl
@[simp] theorem raise_root (e : ErrKind) (s : State) : (raise e s).root = s.root := rfl
@[simp] theorem raise_nalloc (e : ErrKind) (s : State) : (raise e s).nalloc = s.nalloc := rfl
@[simp] theorem raise_cur (e : ErrKind) (s : State) : (raise e s).cur = s.cur := rfl
@[simp] theorem raise_status (e : ErrKind) (s : State) : (raise e s).status = { s.status with faulted := true } := rfl
@[simp] theorem raise_err (e : ErrKind) (s : State) :
    (raise e s).err = some (s.err.getD e) := by
  cases h : s.err <;> simp [raise, h]
@[simp] theorem raise_freq (e : ErrKind) (s : State) : (raise e s).freq = s.freq := rfl
@[simp] theorem raise_node (e : ErrKind) (s : State) : (raise e s).node = s.node := rfl
@[simp] theorem raise_pq (e : ErrKind) (s : State) : (raise e s).pq = s.pq := rfl
@[simp] theorem raise_code (e : ErrKind) (s : State) : (raise e s).code = s.code := rfl
@[simp] theorem raise_scratch (e : ErrKind) (s : State) : (raise e s).scratch = s.scratch := rfl
@[simp] theorem raise_activity (e : ErrKind) (s : State) : (raise e s).activity = .idle := rfl
@[simp] theorem raise_seq (e : ErrKind) (s : State) : (raise e s).seq = [] := rfl
@[simp] theorem raise_source (e : ErrKind) (s : State) : (raise e s).source = s.source := rfl
@[simp] theorem raise_sink (e : ErrKind) (s : State) : (raise e s).sink = s.sink := rfl
@[simp] theorem raise_host (e : ErrKind) (s : State) : (raise e s).host = s.host := rfl
@[simp] theorem raise_readout (e : ErrKind) (s : State) : (raise e s).readout = s.readout := rfl
@[simp] theorem raise_trace (e : ErrKind) (s : State) : (raise e s).trace = s.trace := rfl
@[simp] theorem raise_draws (e : ErrKind) (s : State) : (raise e s).draws = s.draws := rfl

/-! ### returnFromFault -/

@[simp] theorem returnFromFault_cntW (s : State) : (returnFromFault s).cntW = s.cntW := rfl
@[simp] theorem returnFromFault_root (s : State) : (returnFromFault s).root = s.root := rfl
@[simp] theorem returnFromFault_nalloc (s : State) : (returnFromFault s).nalloc = 0 := rfl
@[simp] theorem returnFromFault_cur (s : State) : (returnFromFault s).cur = s.cur := rfl
@[simp] theorem returnFromFault_status (s : State) : (returnFromFault s).status = Status.zero := rfl
@[simp] theorem returnFromFault_err (s : State) : (returnFromFault s).err = none := rfl
@[simp] theorem returnFromFault_freq (s : State) : (returnFromFault s).freq = s.freq := rfl
@[simp] theorem returnFromFault_node (s : State) : (returnFromFault s).node = s.node := rfl
@[simp] theorem returnFromFault_pq (s : State) : (returnFromFault s).pq = [] := rfl
@[simp] theorem returnFromFault_code (s : State) : (returnFromFault s).code = s.code := rfl
@[simp] theorem returnFromFault_scratch (s : State) : (returnFromFault s).scratch = s.scratch := rfl
@[simp] theorem returnFromFault_activity (s : State) : (returnFromFault s).activity = s.activity := rfl
@[simp] theorem returnFromFault_seq (s : State) : (returnFromFault s).seq = s.seq := rfl
@[simp] theorem returnFromFault_source (s : State) : (returnFromFault s).source = s.source := rfl
@[simp] theorem returnFromFault_sink (s : State) : (returnFromFault s).sink = s.sink := rfl
@[simp] theorem returnFromFault_host (s : State) : (returnFromFault s).host = s.host := rfl
@[simp] theorem returnFromFault_readout (s : State) : (returnFromFault s).readout = s.readout := rfl
@[simp] theorem returnFromFault_trace (s : State) : (returnFromFault s).trace = s.trace := rfl
@[simp] theorem returnFromFault_draws (s : State) : (returnFromFault s).draws = s.draws := rfl

/-! ### addLeaf -/

@[simp] theorem addLeaf_cntW (sym : Sym) (w : Nat) (s : State) : (addLeaf sym w s).cntW = s.cntW := rfl
@[simp] theorem addLeaf_root (sym : Sym) (w : Nat) (s : State) : (addLeaf sym w s).root = s.root := rfl
@[simp] theorem addLeaf_nalloc (sym : Sym) (w : Nat) (s : State) : (addLeaf sym w s).nalloc = s.nalloc + 1 := rfl
@[simp] theorem addLeaf_cur (sym : Sym) (w : Nat) (s : State) : (addLeaf sym w s).cur = s.cur := rfl
@[simp] theorem addLeaf_status (sym : Sym) (w : Nat) (s : State) : (addLeaf sym w s).status = s.status := rfl
@[simp] theorem addLeaf_err (sym : Sym) (w : Nat) (s : State) : (addLeaf sym w s).err = s.err := rfl
@[simp] theorem addLeaf_freq (sym : Sym) (w : Nat) (s : State) : (addLeaf sym w s).freq = s.freq := rfl
@[simp] theorem addLeaf_node (sym : Sym) (w : Nat) (s : State) :
    (addLeaf sym w s).node = s.node.setIfInBounds s.nalloc.toNat { s.nodeAt s.nalloc with kind := .leaf, sym := sym, weight := w } := rfl
@[simp] theorem addLeaf_pq (sym : Sym) (w : Nat) (s : State) : (addLeaf sym w s).pq = s.pq ++ [s.nalloc] := rfl
@[simp] theorem addLeaf_code (sym : Sym) (w : Nat) (s : State) : (addLeaf sym w s).code = s.code := rfl
@[simp] theorem addLeaf_scratch (sym : Sym) (w : Nat) (s : State) : (addLeaf sym w s).scratch = s.scratch := rfl
@[simp] theorem addLeaf_activity (sym : Sym) (w : Nat) (s : State) : (addLeaf sym w s).activity = s.activity := rfl
@[simp] theorem addLeaf_seq (sym : Sym) (w : Nat) (s : State) : (addLeaf sym w s).seq = s.seq := rfl
@[simp] theorem addLeaf_source (sym : Sym) (w : Nat) (s : State) : (addLeaf sym w s).source = s.source := rfl
@[simp] theorem addLeaf_sink (sym : Sym) (w : Nat) (s : State) : (addLeaf sym w s).sink = s.sink := rfl
@[simp] theorem addLeaf_host (sym : Sym) (w : Nat) (s : State) : (addLeaf sym w s).host = s.host := rfl
@[simp] theorem addLeaf_readout (sym : Sym) (w : Nat) (s : State) : (addLeaf sym w s).readout = s.readout := rfl
@[simp] theorem addLeaf_trace (sym : Sym) (w : Nat) (s : State) : (addLeaf sym w s).trace = s.trace := rfl
@[simp] theorem addLeaf_draws (sym : Sym) (w : Nat) (s : State) : (addLeaf sym w s).draws = s.draws := rfl

/-! ### addInternal -/

@[simp] theorem addInternal_cntW (a b : Idx) (s : State) : (addInternal a b s).cntW = s.cntW := rfl
@[simp] theorem addInternal_root (a b : Idx) (s : State) : (addInternal a b s).root = s.root := rfl
@[simp] theorem addInternal_nalloc (a b : Idx) (s : State) : (addInternal a b s).nalloc = s.nalloc + 1 := rfl
@[simp] theorem addInternal_cur (a b : Idx) (s : State) : (addInternal a b s).cur = s.cur := rfl
@[simp] theorem addInternal_status (a b : Idx) (s : State) : (addInternal a b s).status = s.status := rfl
@[simp] theorem addInternal_err (a b : Idx) (s : State) : (addInternal a b s).err = s.err := rfl
@[simp] theorem addInternal_freq (a b : Idx) (s : State) : (addInternal a b s).freq = s.freq := rfl
@[simp] theorem addInternal_node (a b : Idx) (s : State) :
    (addInternal a b s).node = s.node.setIfInBounds s.nalloc.toNat { kind := .internal, sym := 0, weight := (s.nodeAt a).weight + (s.nodeAt b).weight, left := a, right := b } := rfl
@[simp] theorem addInternal_pq (a b : Idx) (s : State) : (addInternal a b s).pq = s.pq ++ [s.nalloc] := rfl
@[simp] theorem addInternal_code (a b : Idx) (s : State) : (addInternal a b s).code = s.code := rfl
@[simp] theorem addInternal_scratch (a b : Idx) (s : State) : (addInternal a b s).scratch = s.scratch := rfl
@[simp] theorem addInternal_activity (a b : Idx) (s : State) : (addInternal a b s).activity = s.activity := rfl
@[simp] theorem addInternal_seq (a b : Idx) (s : State) : (addInternal a b s).seq = s.seq := rfl
@[simp] theorem addInternal_source (a b : Idx) (s : State) : (addInternal a b s).source = s.source := rfl
@[simp] theorem addInternal_sink (a b : Idx) (s : State) : (addInternal a b s).sink = s.sink := rfl
@[simp] theorem addInternal_host (a b : Idx) (s : State) : (addInternal a b s).host = s.host := rfl
@[simp] theorem addInternal_readout (a b : Idx) (s : State) : (addInternal a b s).readout = s.readout := rfl
@[simp] theorem addInternal_trace (a b : Idx) (s : State) : (addInternal a b s).trace = s.trace := rfl
@[simp] theorem addInternal_draws (a b : Idx) (s : State) : (addInternal a b s).draws = s.draws := rfl

end Sys2Proof.Machine
end

