-- ==== Sys2Proof/Laws/Ops.lean ====
section
/-! SUPPORT. For each shared operation, everything it can do: the lemmas proofs cite in place of the definitions. -/

namespace Sys2Proof.Machine

/-! ### Sequencing -/

@[simp] theorem andThen_next (s : State) (f : State → Outcome) : andThen (.next s) f = f s := rfl

@[simp] theorem andThen_fault (r : Fault) (f : State → Outcome) : andThen (.fault r) f = .fault r := rfl

@[simp] theorem andThen_refused (r : Refusal) (f : State → Outcome) : andThen (.refused r) f = .refused r := rfl

/-- A sequence answers a next state exactly when both parts do. -/
theorem andThen_eq_next {o : Outcome} {f : State → Outcome} {t : State} :
    andThen o f = .next t ↔ ∃ s, o = .next s ∧ f s = .next t := by
  cases o <;> simp [andThen]

theorem andThen_assoc (o : Outcome) (f g : State → Outcome) :
    andThen (andThen o f) g = andThen o fun s => andThen (f s) g := by
  cases o <;> rfl

theorem unlessFaulted_faulted {s : State} (h : s.status.faulted = true) (f : State → Outcome) :
    unlessFaulted s f = .next s := by simp [unlessFaulted, h]

theorem unlessFaulted_ready {s : State} (h : s.status.faulted = false) (f : State → Outcome) :
    unlessFaulted s f = f s := by simp [unlessFaulted, h]

/-- A command either is ignored or runs (R206). -/
theorem unlessFaulted_eq_next {s t : State} {f : State → Outcome} (h : unlessFaulted s f = .next t) :
    (s.status.faulted = true ∧ t = s) ∨ (s.status.faulted = false ∧ f s = .next t) := by
  cases hf : s.status.faulted with
  | true => left; rw [unlessFaulted_faulted hf] at h; exact ⟨rfl, by simpa using h.symm⟩
  | false => right; rw [unlessFaulted_ready hf] at h; exact ⟨rfl, h⟩

@[simp] theorem requireFlags_true (s : State) (f : State → Outcome) : requireFlags true s f = f s := rfl

@[simp] theorem requireFlags_false (s : State) (f : State → Outcome) :
    requireFlags false s f = .next (raise .sequence s) := rfl

/-- An operation with a prerequisite either has it or raises `E_SEQUENCE` (R204). -/
theorem requireFlags_eq_next {c : Bool} {s t : State} {f : State → Outcome} (h : requireFlags c s f = .next t) :
    (c = true ∧ f s = .next t) ∨ (c = false ∧ t = raise .sequence s) := by
  cases c with
  | true => exact .inl ⟨rfl, h⟩
  | false => exact .inr ⟨rfl, by simpa using h.symm⟩

@[simp] theorem releaseScratch_next (s : State) : releaseScratch (.next s) = .next s.freeScratch := rfl

@[simp] theorem releaseScratch_fault (r : Fault) : releaseScratch (.fault r) = .fault r := rfl

@[simp] theorem releaseScratch_refused (r : Refusal) : releaseScratch (.refused r) = .refused r := rfl

theorem releaseScratch_eq_next {o : Outcome} {t : State} :
    releaseScratch o = .next t ↔ ∃ s, o = .next s ∧ t = s.freeScratch := by
  rw [releaseScratch, andThen_eq_next]
  simp [eq_comm]

/-! ### Scratch -/

/-- Free scratch contents fit the stack (R41). -/
theorem freeScratchOf_stk_length (cntW draw : Nat) : (freeScratchOf cntW draw).stk.length ≤ 512 := by
  simp [freeScratchOf, Config.stkCap]

/-- Free scratch contents fit `ACC` (R25). -/
theorem freeScratchOf_acc_lt (cntW draw : Nat) : (freeScratchOf cntW draw).acc < 2 ^ Config.weightW cntW :=
  Nat.mod_lt _ (by positivity)

/-! ### Arrays -/

theorem freqAt_setFreq (s : State) (k n j : Nat) :
    (s.setFreq k n).freqAt j = if k = j ∧ k < 257 then n else s.freqAt j := by
  simp only [State.freqAt, setFreq_freq, Vector.getElem?_setIfInBounds]
  by_cases h : k = j
  · subst h
    by_cases hk : k < 257
    · simp [hk]
    · simp [hk]
  · simp [h]

@[simp] theorem freqAt_zeroFreq (s : State) (k : Nat) : s.zeroFreq.freqAt k = 0 := by
  simp only [State.freqAt, zeroFreq_freq]
  by_cases hk : k < 257
  · simp [hk]
  · simp [Vector.getElem?_eq_none (by omega : 257 ≤ k)]

/-- A read of a written entry gives it; every other entry is left alone. -/
theorem nodeAt_setNode (s : State) (i j : Idx) (e : NodeEntry) :
    (s.setNode i e).nodeAt j = if i = j ∧ i.toNat < 513 then e else s.nodeAt j := by
  simp only [State.nodeAt, setNode_node, Vector.getElem?_setIfInBounds]
  by_cases h : i = j
  · subst h
    by_cases hk : i.toNat < 513
    · simp [hk]
    · simp [hk]
  · have : i.toNat ≠ j.toNat := fun e => h (BitVec.eq_of_toNat_eq e)
    simp [h, this]

/-- Reading an entry: it lies below `NALLOC` and in the array, and is what stands there (R46, R80). -/
theorem readNode_eq_some {s : State} {i : Idx} {e : NodeEntry} :
    s.readNode i = some e ↔ i.toNat < s.nalloc.toNat ∧ i.toNat < 513 ∧ s.nodeAt i = e := by
  unfold State.readNode State.nodeAt
  by_cases h : i.toNat < s.nalloc.toNat
  · by_cases hk : i.toNat < 513
    · simp [h, hk]
    · simp [h, hk]
  · simp [h]

theorem codeAt_dropCodes (s : State) (k : Nat) :
    s.dropCodes.codeAt k = { s.codeAt k with valid := false } := by
  unfold State.codeAt State.dropCodes
  by_cases hk : k < 257
  · simp [hk]
  · simp [Vector.getElem?_eq_none (by omega : 257 ≤ k)]

/-! ### Ports -/

/-- Everything `SrcRead(n)` can do when it returns a number (R61). -/
theorem srcRead_eq_data {n v : Nat} {s t : State} (h : srcRead n s = .data v t) :
    ∃ src, s.source = some src ∧ n ≠ 0 ∧ n ≤ 32 ∧ src.eos = false ∧ src.pos + n ≤ src.bits.length ∧
      v = intOf ((src.bits.drop src.pos).take n) ∧
      t = { s with
        source := some { src with pos := src.pos + n }, trace := s.trace ++ [.srcRead n (some v)] } := by
  unfold srcRead at h
  cases hs : s.source with
  | none => simp [hs] at h
  | some src =>
    simp only [hs] at h
    split at h
    · cases h
    · split at h
      · cases h
      · rename_i hn hb
        simp only [not_or, Nat.not_lt] at hn hb
        simp only [SrcAnswer.data.injEq] at h
        obtain ⟨rfl, rfl⟩ := h
        exact ⟨src, rfl, hn.1, hn.2, by simpa using hb.1, hb.2, rfl, rfl⟩

/-- Everything `SrcRead(n)` can do when it returns `NODATA` (R61). -/
theorem srcRead_eq_noData {n : Nat} {s t : State} (h : srcRead n s = .noData t) :
    ∃ src, s.source = some src ∧ n ≠ 0 ∧ n ≤ 32 ∧ (src.eos = true ∨ src.bits.length < src.pos + n) ∧
      t = { s with source := some { src with eos := true }, trace := s.trace ++ [.srcRead n none] } := by
  unfold srcRead at h
  cases hs : s.source with
  | none => simp [hs] at h
  | some src =>
    simp only [hs] at h
    split at h
    · cases h
    · split at h
      · rename_i hn hb
        simp only [not_or, Nat.not_lt] at hn
        simp only [SrcAnswer.noData.injEq] at h
        exact ⟨src, rfl, hn.1, hn.2, hb, h.symm⟩
      · cases h

/-- A number read with width `n` is below `2^n` (R61). -/
theorem srcRead_lt {n v : Nat} {s t : State} (h : srcRead n s = .data v t) : v < 2 ^ n := by
  obtain ⟨src, -, -, -, -, -, rfl, -⟩ := srcRead_eq_data h
  exact lt_of_lt_of_le (intOf_lt _) (Nat.pow_le_pow_right (by norm_num) (by simp))

/-- An input the host keeps unchanged is delivered again (R62, R266). -/
theorem rewound_of_unchanged {src : Source} (h : src.rescan = none) : src.rewound = { src with pos := 0, eos := false } := by
  simp [Source.rewound, h]

@[simp] theorem rewound_bits (src : Source) : src.rewound.bits = src.rescan.getD src.bits := rfl
@[simp] theorem rewound_pos (src : Source) : src.rewound.pos = 0 := rfl
@[simp] theorem rewound_eos (src : Source) : src.rewound.eos = false := rfl
@[simp] theorem rewound_rescan (src : Source) : src.rewound.rescan = none := rfl

/-- Everything `SrcReset()` can do when it goes on (R62). -/
theorem srcReset_eq_next {s t : State} :
    srcReset s = .next t ↔ ∃ src, s.source = some src ∧
      t = { s with source := some src.rewound, trace := s.trace ++ [.srcReset] } := by
  unfold srcReset
  cases s.source <;> simp [State.note, eq_comm]

/-- Everything `SinkWrite(n, v)` can do when it goes on (R64). -/
theorem sinkWrite_eq_next {n v : Nat} {s t : State} :
    sinkWrite n v s = .next t ↔ ∃ snk, s.sink = some snk ∧ snk.closed = false ∧ n ≠ 0 ∧ n ≤ 32 ∧
      t = { s with
        sink := some { snk with out := snk.out ++ bitsOf n v }, trace := s.trace ++ [.sinkWrite n v] } := by
  unfold sinkWrite
  cases hs : s.sink with
  | none => simp
  | some snk =>
    cases hc : snk.closed with
    | true => simp [hc]
    | false =>
      by_cases hn : n = 0 ∨ Config.portMaxN < n
      · simp only [hn, Option.some.injEq]
        simp only [Config.portMaxN] at hn
        constructor
        · intro h; simp [hc] at h
        · rintro ⟨k, rfl, -, h0, h32, -⟩; omega
      · simp only [hn, Option.some.injEq]
        simp only [Config.portMaxN, not_or, Nat.not_lt] at hn
        constructor
        · intro h
          exact ⟨snk, rfl, hc, hn.1, hn.2, by simpa [State.note, eq_comm, hc] using h⟩
        · rintro ⟨k, rfl, -, -, -, rfl⟩
          simp [State.note, hc]

/-- Everything `SinkClose()` can do when it goes on (R65). -/
theorem sinkClose_eq_next {pad : BitVec 7} {s t : State} :
    sinkClose pad s = .next t ↔ ∃ snk, s.sink = some snk ∧ snk.closed = false ∧
      t = { s with
        sink := some { out := snk.out ++ bitsOf ((8 - snk.out.length % 8) % 8) pad.toNat, closed := true } } := by
  unfold sinkClose
  cases hs : s.sink with
  | none => simp
  | some snk =>
    cases hc : snk.closed with
    | true => simp [hc]
    | false =>
      constructor
      · intro h
        exact ⟨snk, rfl, hc, by simpa [hc] using h.symm⟩
      · rintro ⟨k, hk, -, rfl⟩
        cases hk
        simp [hc]

/-- A port operation never makes the model fault. -/
theorem sinkWrite_ne_fault (n v : Nat) (s : State) (f : Fault) : sinkWrite n v s ≠ .fault f := by
  unfold sinkWrite
  cases s.sink with
  | none => simp
  | some snk => simp only; split <;> [simp; (split <;> simp)]

/-! ### Faults -/

/-- `raise` in one piece (R230). -/
theorem raise_eq (e : ErrKind) (s : State) :
    raise e s =
      { s with
        err := some (s.err.getD e), status := { s.status with faulted := true }, activity := .idle, seq := [] } := by
  unfold raise
  cases s.err <;> rfl

/-! ### Tokens -/

/-- A token ends RDHDR, or leaves it waiting for the next one with a node to spare (R171). -/
theorem awaitNode_eq_next {stk : List Frame} {s t : State} (h : awaitNode stk s = .next t) :
    (s.nalloc.toNat < 513 ∧ t = { s with scratch := { s.scratch with stk := stk } }) ∨
      (513 ≤ s.nalloc.toNat ∧ t = (raise .treeOverflow s).freeScratch) := by
  unfold awaitNode at h
  split at h
  · rename_i hn
    exact .inl ⟨hn, by simpa using h.symm⟩
  · rename_i hn
    exact .inr ⟨by simpa using hn, by simpa [raiseInTree] using h.symm⟩

/-- What taking a token does in a step is what it does inside RDHDR and RDMAGIC: the token's own meaning is run. -/
theorem takeToken_got {s t : State} {i : Instr} (h : fetchWire s = .got i t) : takeToken s = runToken i t := by
  simp [takeToken, h]

end Sys2Proof.Machine
end

