-- ==== Sys2Proof/Laws/PerInstr.lean ====
section
/-! SUPPORT. Statements made once per instruction, about the instruction as syntax: the width of its encoding is the opcode
table's, and the table's numbering of its bits decodes to it. -/

namespace Sys2Proof.Laws

/-- The "width" of each row of spec/opcode_table.json. -/
def tableWidth : Instr → Nat
  | .clear | .count | .build | .gencode | .wrmagic | .wrhdr | .encode | .rdmagic | .rdhdr | .decode | .compress
  | .decompress => 4
  | .wMagic => 32
  | .wInode => 1
  | .wLeaf _ => 10

/-- The bits of an encoding as one number, the table's bit 0 least significant (30_encoding.md R110). -/
def tableNumber : Encoded → Nat
  | .cmd op => op.toNat
  | .wire bits => intOf bits

/-- An encoding is as wide as the table's row. -/
def EncodedWidth.Statement (i : Instr) : Prop := (encode i).width = tableWidth i

theorem EncodedWidth.clear : EncodedWidth.Statement .clear := rfl
theorem EncodedWidth.count : EncodedWidth.Statement .count := rfl
theorem EncodedWidth.build : EncodedWidth.Statement .build := rfl
theorem EncodedWidth.gencode : EncodedWidth.Statement .gencode := rfl
theorem EncodedWidth.wrmagic : EncodedWidth.Statement .wrmagic := rfl
theorem EncodedWidth.wrhdr : EncodedWidth.Statement .wrhdr := rfl
theorem EncodedWidth.encode : EncodedWidth.Statement .encode := rfl
theorem EncodedWidth.rdmagic : EncodedWidth.Statement .rdmagic := rfl
theorem EncodedWidth.rdhdr : EncodedWidth.Statement .rdhdr := rfl
theorem EncodedWidth.decode : EncodedWidth.Statement .decode := rfl
theorem EncodedWidth.compress : EncodedWidth.Statement .compress := rfl
theorem EncodedWidth.decompress : EncodedWidth.Statement .decompress := rfl
theorem EncodedWidth.wMagic : EncodedWidth.Statement .wMagic := rfl
theorem EncodedWidth.wInode : EncodedWidth.Statement .wInode := rfl
theorem EncodedWidth.wLeaf (sym : Nat) : EncodedWidth.Statement (.wLeaf sym) := rfl

/-- The number of a well-formed instruction's bits, at the row's width, decodes to the instruction. -/
def TableWord.Statement (i : Instr) : Prop :=
  wellFormed i = true → decodeTableWord (tableWidth i) (tableNumber (Sys2Proof.encode i)) = some i

theorem TableWord.clear : TableWord.Statement .clear := fun _ => by decide
theorem TableWord.count : TableWord.Statement .count := fun _ => by decide
theorem TableWord.build : TableWord.Statement .build := fun _ => by decide
theorem TableWord.gencode : TableWord.Statement .gencode := fun _ => by decide
theorem TableWord.wrmagic : TableWord.Statement .wrmagic := fun _ => by decide
theorem TableWord.wrhdr : TableWord.Statement .wrhdr := fun _ => by decide
theorem TableWord.encode : TableWord.Statement .encode := fun _ => by decide
theorem TableWord.rdmagic : TableWord.Statement .rdmagic := fun _ => by decide
theorem TableWord.rdhdr : TableWord.Statement .rdhdr := fun _ => by decide
theorem TableWord.decode : TableWord.Statement .decode := fun _ => by decide
theorem TableWord.compress : TableWord.Statement .compress := fun _ => by decide
theorem TableWord.decompress : TableWord.Statement .decompress := fun _ => by decide
theorem TableWord.wMagic : TableWord.Statement .wMagic := fun _ => by decide +kernel
theorem TableWord.wInode : TableWord.Statement .wInode := fun _ => by decide

theorem TableWord.wLeaf (sym : Nat) : TableWord.Statement (.wLeaf sym) := by
  intro h
  have hs : sym < 512 := of_decide_eq_true h
  have number : intOf (true :: bitsOf 9 sym) = 512 + sym := by
    rw [intOf_cons, intOf_bitsOf, bitsOf_length, Nat.mod_eq_of_lt (by simpa using hs)]
    simp
  have bits : bitsOf 10 (512 + sym) = true :: bitsOf 9 sym := by
    rw [← number]
    simpa using bitsOf_intOf (true :: bitsOf 9 sym)
  have width : tableWidth (.wLeaf sym) = 10 := rfl
  have enc : tableNumber (Sys2Proof.encode (.wLeaf sym)) = 512 + sym := number
  have lt : 512 + sym < 2 ^ 10 := by omega
  rw [width, enc]
  unfold decodeTableWord tableEncoded
  simp only [lt, bits, if_true, Nat.reduceEqDiff, or_self, if_false, true_or]
  simp [Sys2Proof.decode, decodeWire, bitsOf_length, intOf_bitsOf, Nat.mod_eq_of_lt hs]

end Sys2Proof.Laws
end

