-- ==== Sys2Proof/Tests/Slice0.lean ====
section
/-! SUPPORT. Small tests. Expected results are the spec's: the tables of 30_encoding.md and the vectors of 95_test_vectors.md, named
at each test. Then, for each statement with hypotheses, a witness: a state and operands that meet them all. -/

open Sys2Proof Sys2Proof.Machine

namespace Sys2Proof.Tests

set_option Elab.async false

/-! ### Helpers -/

/-- The state after reset with both ports bound. -/
def bound (bits : Bits) : State :=
  { State.reset with source := some { bits := bits, pos := 0, eos := false }, sink := some { out := [], closed := false } }

/-- The bits of a list of byte values. -/
def bytesBits (bytes : List Nat) : Bits := bitsOfBytes (bytes.map (BitVec.ofNat 8))

/-- The next state, or the reset state after a stop. -/
def after (o : Outcome) : State :=
  match o with
  | .next s => s
  | .fault _ => State.reset
  | .refused _ => State.reset

/-- Is the outcome a next state? -/
def goesOn (o : Outcome) : Bool :=
  match o with
  | .next _ => true
  | .fault _ => false
  | .refused _ => false

theorem eq_next_of_goesOn {o : Outcome} (h : goesOn o = true) : o = .next (after o) := by
  cases o with
  | next s => rfl
  | fault r => cases h
  | refused r => cases h

/-- Run instructions, each after the other. -/
def runAll (is : List Instr) (s : State) : State := is.foldl (fun s i => after (exec i s)) s

/-- What the sink holds. -/
def outBits (s : State) : Bits := (s.sink.map Sink.out).getD []

/-- Where the source stands. -/
def posOf (s : State) : Nat := (s.source.map Source.pos).getD 0

/-- "aaab" (P1, V10). -/
def aaab : List Nat := [0x61, 0x61, 0x61, 0x62]

/-- The tree of "aaab" (R130, R161). -/
def treeAaab : HTree := .node (.node (.leaf 98) (.leaf 256)) (.leaf 97)

/-- A tree of `2n + 1` nodes, every right child but the last a leaf's parent. -/
def comb : Nat → HTree
  | 0 => .leaf 256
  | n + 1 => .node (.leaf (BitVec.ofNat 9 n)) (comb n)

/-- A chain of `n` internal nodes to the left: its header opens with `n` zero bits. -/
def leftChain : Nat → HTree
  | 0 => .leaf 256
  | n + 1 => .node (leftChain n) (.leaf 0)

/-- "aaab" counted, built, coded, the scratch registers as after reset. -/
def coded : State :=
  { runAll [.count, .build, .gencode] (bound (bytesBits aaab)) with scratch := State.reset.scratch }

/-- A state with a finished frequency table. -/
def counted (freq : Vector Nat 257) : State :=
  { State.reset with freq := freq, status := { Status.zero with freqValid := true } }

/-- The table of "aaab", and of the empty input (R120, R122). -/
def freqAaab : Vector Nat 257 :=
  (((Vector.replicate 257 0).setIfInBounds 97 3).setIfInBounds 98 1).setIfInBounds 256 1

def freqEmpty : Vector Nat 257 := (Vector.replicate 257 0).setIfInBounds 256 1

/-- The tree of "aaab" read from a header, with three decoded bits to come. -/
def headed (more : Bits) : State := runAll [.rdhdr] (bound (treeAaab.hdr ++ more))

/-! ### Well-formedness -/

theorem test_wellFormed_rejects : wellFormed (.wLeaf 512) = false := by decide

theorem test_wellFormed_accepts : wellFormed (.wLeaf 511) = true := by decide

/-! ### Decoding: every word written out from R92 and R94 to R96 -/

theorem test_decode_clear : decode (.cmd 0b0000#4) = .ok .clear := by decide
theorem test_decode_count : decode (.cmd 0b0001#4) = .ok .count := by decide
theorem test_decode_build : decode (.cmd 0b0010#4) = .ok .build := by decide
theorem test_decode_gencode : decode (.cmd 0b0011#4) = .ok .gencode := by decide
theorem test_decode_wrmagic : decode (.cmd 0b0100#4) = .ok .wrmagic := by decide
theorem test_decode_wrhdr : decode (.cmd 0b0101#4) = .ok .wrhdr := by decide
theorem test_decode_encode : decode (.cmd 0b0110#4) = .ok .encode := by decide
theorem test_decode_rdmagic : decode (.cmd 0b0111#4) = .ok .rdmagic := by decide
theorem test_decode_rdhdr : decode (.cmd 0b1000#4) = .ok .rdhdr := by decide
theorem test_decode_decode : decode (.cmd 0b1001#4) = .ok .decode := by decide
theorem test_decode_compress : decode (.cmd 0b1010#4) = .ok .compress := by decide
theorem test_decode_decompress : decode (.cmd 0b1011#4) = .ok .decompress := by decide
theorem test_decode_reserved : decode (.cmd 0b1100#4) = .error (.reservedCommand 0b1100#4) := by decide

/-- R94: `1111 1010 1100 1110 1000 0010 0000 0001`. -/
theorem test_decode_wMagic :
    decode (.wire [true, true, true, true, true, false, true, false, true, true, false, false, true, true, true, false,
      true, false, false, false, false, false, true, false, false, false, false, false, false, false, false, true]) =
      .ok .wMagic := by decide +kernel

theorem test_decode_wInode : decode (.wire [false]) = .ok .wInode := by decide

/-- R161: `1 100000000` is the sentinel's leaf. -/
theorem test_decode_wLeaf :
    decode (.wire [true, true, false, false, false, false, false, false, false, false]) = .ok (.wLeaf 256) := by decide

/-- R106: one wrong bit. -/
theorem test_decode_wrong_magic :
    decode (.wire (bitsOf 32 0xFACE8200)) = .error (.notMagic (bitsOf 32 0xFACE8200)) := by decide +kernel

/-! ### One command each -/

/-- R120: "aaab" gives 97: 3, 98: 1, 256: 1, five reads. -/
theorem test_count :
    let t := runAll [.count] (bound (bytesBits aaab))
    t.freqAt 97 = 3 ∧ t.freqAt 98 = 1 ∧ t.freqAt 256 = 1 ∧ t.freqAt 99 = 0 ∧ t.trace.length = 5 ∧
      t.status.word = 0x01 := by decide +kernel

/-- R123: with `CNT_W = 2` the fourth `61` overflows, its byte consumed. -/
theorem test_count_overflow :
    let t := runAll [.count] { bound (bytesBits [0x61, 0x61, 0x61, 0x61]) with cntW := 2 }
    t.errWord = 4 ∧ t.freqAt 97 = 3 ∧ t.freqAt 256 = 0 ∧ posOf t = 32 := by decide +kernel

/-- R130: the example. -/
theorem test_build :
    let t := runAll [.count, .build] (bound (bytesBits aaab))
    t.tree = some treeAaab ∧ t.root = 4 ∧ t.nalloc = 5 ∧ t.pqn = 0 ∧ (t.nodeAt 4).weight = 5 ∧
      t.status.word = 0x07 := by decide +kernel

/-- R139: input `61 61` gives `Node(Leaf 256, Leaf 97)`. -/
theorem test_build_order :
    (runAll [.count, .build] (bound (bytesBits [0x61, 0x61]))).tree = some (.node (.leaf 256) (.leaf 97)) := by
  decide +kernel

/-- R150: `98` is `00`, `256` is `01`, `97` is `1`. -/
theorem test_gencode :
    codeBits (coded.codeAt 98) = [false, false] ∧ codeBits (coded.codeAt 256) = [false, true] ∧
      codeBits (coded.codeAt 97) = [true] ∧ (coded.codeAt 99).valid = false ∧ coded.status.word = 0x0F := by
  decide +kernel

/-- R156: a tree read from a header is refused. -/
theorem test_gencode_read_tree : (runAll [.gencode] (headed [])).errWord = 8 := by decide +kernel

/-- R160: bytes `FA CE 82 01`. -/
theorem test_wrmagic : outBits (runAll [.wrmagic] (bound [])) = bytesBits [0xFA, 0xCE, 0x82, 0x01] := by decide +kernel

/-- R161: bytes `26 2C 02 61`, eight writes. -/
theorem test_wrhdr :
    let t := runAll [.wrhdr] (headed [])
    outBits t = bytesBits [0x26, 0x2C, 0x02, 0x61] ∧ (t.trace.drop (headed []).trace.length).length = 8 := by
  decide +kernel

/-- R180: `1 1 1 00 01`. -/
theorem test_encode :
    outBits (runAll [.encode] coded) = [true, true, true, false, false, false, true] := by decide +kernel

/-- R182: `61 63`: the code of `61`, then `E_NO_CODE`, two bytes consumed. -/
theorem test_encode_no_code :
    let t := runAll [.encode] { coded with source := some { bits := bytesBits [0x61, 0x63, 0x61], pos := 0, eos := false } }
    outBits t = [true] ∧ t.errWord = 6 ∧ posOf t = 16 := by decide +kernel

/-- R163: `FA CE 82 01` leaves the source at bit 32. -/
theorem test_rdmagic :
    let t := runAll [.rdmagic] (bound (bytesBits [0xFA, 0xCE, 0x82, 0x01, 0xFF]))
    t.errWord = 0 ∧ posOf t = 32 := by decide +kernel

/-- R163: with 31 bits, `ERR = 1` and nothing consumed. -/
theorem test_rdmagic_short :
    let t := runAll [.rdmagic] (bound ((bytesBits [0xFA, 0xCE, 0x82, 0x01]).take 31))
    t.errWord = 1 ∧ posOf t = 0 := by decide +kernel

/-- R164: the example's indices. -/
theorem test_rdhdr :
    let t := runAll [.rdhdr] (bound (bytesBits [0x26, 0x2C, 0x02, 0x61]))
    t.root = 0 ∧ t.nalloc = 5 ∧ ((t.nodeAt 0).left, (t.nodeAt 0).right) = (1, 4) ∧
      ((t.nodeAt 1).left, (t.nodeAt 1).right) = (2, 3) ∧ (t.nodeAt 3).sym = 256 ∧ t.status.word = 0x02 := by decide +kernel

/-- R171: zero bits are followed to the 513th node; the 514th flag is not read. -/
theorem test_rdhdr_overflow :
    let t := after (step (after (step { startTree (bound [false, false, false]) with nalloc := 511 })))
    t.errWord = 5 ∧ posOf t = 2 ∧ t.nalloc = 513 := by decide +kernel

/-- R190: `1 1 1 0 0 0 1` gives `61 61 61 62`; what follows is not read. -/
theorem test_decode_payload :
    let t := runAll [.decode] (headed [true, true, true, false, false, false, true, true])
    outBits t = bytesBits aaab ∧ posOf t = 39 ∧ t.status.word = 0x22 := by decide +kernel

/-- R101, R105: a leaf of symbol 300 is the byte 44. -/
theorem test_decode_wide_symbol :
    outBits (runAll [.rdhdr, .decode] (bound ((HTree.node (.leaf 300) (.leaf 256)).hdr ++ [false, true]))) =
      bytesBits [44] := by decide +kernel

/-- R201, P1: `FA CE 82 01 26 2C 02 61 E2` after a close with pad bit 0. -/
theorem test_compress :
    outBits (runAll [.compress] (bound (bytesBits aaab))) ++ [false] =
      bytesBits [0xFA, 0xCE, 0x82, 0x01, 0x26, 0x2C, 0x02, 0x61, 0xE2] := by decide +kernel

/-- R201, R266, V44: the input behind the source becomes `61 61 63` for the second scan of "aaab": magic, header and the codes of two
bytes are written, then `E_NO_CODE`, 24 bits consumed. -/
theorem test_compress_changed_input :
    let t := after (step (after (step
      { bound (bytesBits aaab) with host := [.changeInput (bytesBits [0x61, 0x61, 0x63]), .writeCmd 0xA] })))
    outBits t = bytesBits [0xFA, 0xCE, 0x82, 0x01, 0x26, 0x2C, 0x02, 0x61] ++ [true, true] ∧ t.errWord = 6 ∧ posOf t = 24 ∧
      t.status.word = 0x4F := by decide +kernel

/-- R202, P2: 71 of the 72 bits are consumed. -/
theorem test_decompress :
    let t := runAll [.decompress] (bound (bytesBits [0xFA, 0xCE, 0x82, 0x01, 0x26, 0x2C, 0x02, 0x61, 0xE2]))
    outBits t = bytesBits aaab ∧ posOf t = 71 ∧ t.errWord = 0 := by decide +kernel

/-- R200: after a fault, `ERR = 0` and `STATUS = 0x00`. -/
theorem test_clear :
    let t := runAll [.build, .clear] (bound [])
    t.errWord = 0 ∧ t.status.word = 0x00 := by decide +kernel

/-- R203: a reserved code gives `ERR = 9`; R30: `FAULTED` is bit 6. -/
theorem test_reserved :
    let t := after (step { bound [] with host := [.writeCmd 0xF] })
    t.errWord = 9 ∧ t.status.word = 0x40 := by decide +kernel

/-- R65: 71 bits take one pad bit. -/
theorem test_close :
    outBits (after (sinkClose 0x7F (runAll [.compress] (bound (bytesBits aaab))))) =
      bytesBits [0xFA, 0xCE, 0x82, 0x01, 0x26, 0x2C, 0x02, 0x61, 0xE3] := by decide +kernel

/-- R164: a token at a time, the header of "aaab" is read in five steps. -/
theorem test_tokens :
    let s := startTree (bound treeAaab.hdr)
    let t := after (step (after (step (after (step (after (step (after (step s)))))))))
    t.tree = some treeAaab ∧ t.activity = .idle ∧ posOf t = 32 := by decide +kernel

/-- R163: the magic, a step of its own. -/
theorem test_token_magic :
    (after (step (startMagic (bound (bytesBits [0xFA, 0xCE, 0x82, 0x01]))))).activity = .idle := by decide +kernel

/-! ### Witnesses: the hypotheses of each statement can be met -/

theorem witness_DecodeOfEncode : wellFormed (.wLeaf 511) = true ∧ wellFormed .decompress = true := by decide

theorem witness_EncodeOfDecode : decode (encode (.wLeaf 511)) = .ok (.wLeaf 511) := by decide

theorem witness_StepRunsIssuedCommand :
    let s := { State.reset with host := [.writeCmd 0xB] }
    s.activity = .idle ∧ s.seq = [] ∧ s.host = .writeCmd 0xB :: [] ∧ decode (.cmd 0xB) = .ok .decompress := by
  decide +kernel

theorem witness_StepRunsAwaitedToken :
    let src := fun tok : Bits => ({ bits := tok ++ [true], pos := 0, eos := false } : Source)
    ((src (bitsOf 32 0xFACE8201)).bits.drop 0 = bitsOf 32 0xFACE8201 ++ [true] ∧
      decode (.wire (bitsOf 32 0xFACE8201)) = .ok .wMagic) ∧
    ((src [false]).bits.drop 0 = [false] ++ [true] ∧ decode (.wire [false]) = .ok .wInode) ∧
    ((src (true :: bitsOf 9 511)).bits.drop 0 = true :: bitsOf 9 511 ++ [true] ∧
      decode (.wire (true :: bitsOf 9 511)) = .ok (.wLeaf 511)) ∧
    (startMagic (bound [])).activity = .magic ∧ (startTree (bound [])).activity = .tree ∧ Instr.wInode ≠ .wMagic := by
  decide +kernel

theorem witness_ReservedCommandFaults :
    let s := { State.reset with host := [.writeCmd 0xC, .writeCmd 0xF] }
    let f := { s with status := { s.status with faulted := true }, err := some .sequence }
    s.activity = .idle ∧ s.seq = [] ∧ s.host = .writeCmd 0xC :: [.writeCmd 0xF] ∧ 12 ≤ (0xC : BitVec 4).toNat ∧
      s.status.faulted = false ∧ f.status.faulted = true := by decide +kernel

theorem witness_HostActionEffects :
    let s := { bound [] with host := [.closeSink 0], sink := some { out := List.replicate 9 true, closed := false } }
    State.reset.host = [] ∧ s.activity = .idle ∧ s.seq = [] ∧ s.host = .closeSink 0 :: [] ∧
      s.sink.map Sink.closed = some false ∧ s.source = some { bits := [], pos := 0, eos := false } := by decide +kernel

theorem witness_FaultedBlockIgnoresCommands :
    let s := { (runAll [.build] (bound [])) with host := [.writeCmd 0x1] }
    s.status.faulted = true ∧ isCommand .decompress = true ∧ Instr.decompress ≠ .clear ∧ s.activity = .idle ∧ s.seq = [] ∧
      s.host = .writeCmd 0x1 :: [] ∧ (0x1 : BitVec 4) ≠ 0 := by decide +kernel

theorem witness_RaiseRecordsFirstFault :
    State.reset.err = none ∧ (runAll [.build] (bound [])).err = some .sequence := by decide +kernel

theorem witness_FaultKeptUntilClear :
    let s := runAll [.build] (bound [])
    Instr.count ≠ .clear ∧ exec .count s = .next (after (exec .count s)) ∧ s.err = some .sequence ∧
      s.status.faulted = true :=
  ⟨by decide, eq_next_of_goesOn (by decide +kernel), by decide +kernel, by decide +kernel⟩

theorem witness_MissingFlagRaisesSequence :
    State.reset.ready ∧ State.reset.status.freqValid = false ∧ State.reset.status.treeValid = false ∧
      State.reset.status.codeValid = false ∧ (headed []).ready ∧ (headed []).status.treeValid = true ∧
      (headed []).status.treeBuilt = false := by decide +kernel

theorem witness_SrcReadAllOrNothing :
    let src := fun n eos => ({ bits := List.replicate n true, pos := 0, eos := eos } : Source)
    ((src 32 true).eos = true ∧ 1 ≤ 32 ∧ 32 ≤ 32) ∧ ((src 31 false).bits.length < 0 + 32) ∧
      ((src 32 false).eos = false ∧ (src 32 false).bits.drop 0 = List.replicate 32 true ++ [] ∧
        (List.replicate 32 true).length = 32) ∧
      ((src 1 false).bits.drop 0 = [true] ++ [] ∧ [true].length = 1) ∧ (src 1 false).rescan = none ∧
      ({ src 1 false with rescan := some [] } : Source).rescan = some [] := by decide +kernel

theorem witness_SinkWriteAppendsLowBits :
    (bound []).sink = some { out := [], closed := false } ∧ 1 ≤ 1 ∧ 1 ≤ 32 ∧ 32 ≤ 32 := by decide +kernel

theorem witness_CountFillsFrequencies :
    let s := { bound (bytesBits [0x61, 0xFF]) with cntW := 1 }
    let src : Source := { bits := bytesBits [0x61, 0xFF], pos := 0, eos := false }
    s.status.faulted = false ∧ s.source = some src ∧ ∀ k < 256, src.bytes.count k ≤ 2 ^ s.cntW - 1 := by decide +kernel

theorem witness_CountOverflowFaults :
    let s := { bound (bytesBits [0x61, 0x61]) with cntW := 1 }
    let src : Source := { bits := bytesBits [0x61, 0x61], pos := 0, eos := false }
    s.ready ∧ s.source = some src ∧ src.bytes = [0x61] ++ 0x61 :: [] ∧
      (∀ k, [0x61].count k ≤ 2 ^ s.cntW - 1) ∧ [0x61].count 0x61 = 2 ^ s.cntW - 1 :=
  ⟨by decide +kernel, by decide +kernel, by decide +kernel, fun _ => List.count_le_length, by decide +kernel⟩

theorem witness_RemoveMinTakesLeast : ({ coded with pq := [2, 1, 0] } : State).pq ≠ [] := by decide +kernel

/-- For BuildPlacesLeavesInOrder, BuildMergesLightestPair and BuiltTreeIsWellFormed. -/
theorem witness_Build :
    let s := counted freqAaab
    s.status.faulted = false ∧ s.status.freqValid = true ∧ 0 < s.freqAt 256 ∧ s.freqOk = true := by decide +kernel

/-- When the first pair of "aaab" is merged, node 0 waits and stays. -/
theorem witness_BuildMergesLightestPair :
    let t := runAll [.build] (counted freqAaab)
    (t.nodeAt 3).left = 1 ∧ (t.nodeAt 3).right = 2 ∧ waitsFor t 3 3 0 :=
  ⟨by decide +kernel, by decide +kernel, by decide, fun k _ h h' => absurd h (by omega)⟩

theorem witness_BuildOfEmptyInput :
    let e := counted freqEmpty
    e.status.faulted = false ∧ e.status.freqValid = true ∧ e.freqAt 256 = 1 ∧ ∀ k < 256, e.freqAt k = 0 := by
  decide +kernel

/-- For GencodeRecordsPaths, CodesArePrefixFree and CodeTableIsComplete. -/
theorem witness_Gencode :
    let s := runAll [.count, .build] (bound (bytesBits aaab))
    s.status.faulted = false ∧ s.status.treeValid = true ∧ s.status.treeBuilt = true ∧ s.tree = some treeAaab ∧
      treeAaab.syms.Nodup ∧ (∀ x ∈ treeAaab.syms, x.toNat ≤ 256) ∧ treeAaab.depth ≤ 256 ∧ s.builtOk = true := by
  decide +kernel

theorem witness_CodesArePrefixFree :
    (97 : Nat) < 257 ∧ 256 < 257 ∧ 97 ≠ 256 ∧ (coded.codeAt 97).valid = true ∧ (coded.codeAt 256).valid = true := by
  decide +kernel

theorem witness_WrmagicWritesMagic :
    (bound []).status.faulted = false ∧ (bound []).sink = some { out := [], closed := false } := by decide +kernel

theorem witness_WrhdrWritesTree :
    (headed []).status.faulted = false ∧ (headed []).status.treeValid = true ∧ (headed []).tree = some treeAaab ∧
      (headed []).sink = some { out := [], closed := false } := by decide +kernel

theorem witness_RdmagicChecksMagic :
    let right := bitsOf 32 0xFACE8201
    let wrong := bitsOf 32 0xFACE8200
    (bound right).ready ∧ (bound right).source = some { bits := right, pos := 0, eos := false } ∧
      right.drop 0 = right ++ [] ∧ right.length = 32 ∧ intOf right = 0xFACE8201 ∧ wrong.length = 32 ∧
      intOf wrong ≠ 0xFACE8201 ∧ (right.take 31).length < 0 + 32 := by decide +kernel

/-- A small tree and the largest that fits. -/
theorem witness_RdhdrReadsTree :
    let s := bound ((comb 256).hdr ++ [true])
    (s.status.faulted = false ∧ s.source = some { bits := (comb 256).hdr ++ [true], pos := 0, eos := false } ∧
      ((comb 256).hdr ++ [true]).drop 0 = (comb 256).hdr ++ [true] ∧ (comb 256).size ≤ 513) ∧
    treeAaab.size ≤ 513 := by decide +kernel

/-- Cut to no bit, and to all but one. -/
theorem witness_CutHeaderIsMalformed :
    (bound []).ready ∧ treeAaab.size ≤ 513 ∧ ([] : Bits) <+: treeAaab.hdr ∧ [] ≠ treeAaab.hdr ∧
      treeAaab.hdr.take 31 <+: treeAaab.hdr ∧ treeAaab.hdr.take 31 ≠ treeAaab.hdr := by decide +kernel

/-- The 513 tokens of a tree of 515 nodes, and 513 zero bits. -/
theorem witness_HeaderCapacity :
    let bits := ((comb 257).tokens.take 513).flatten
    (bound bits).ready ∧ (bound bits).source = some { bits := bits, pos := 0, eos := false } ∧ 513 < (comb 257).size ∧
      bits.drop 0 = ((comb 257).tokens.take 513).flatten ++ [] ∧ 513 < (leftChain 513).size ∧
      List.replicate 513 false = ((leftChain 513).tokens.take 513).flatten := by decide +kernel

theorem witness_RdhdrEndsWithTreeOrFault :
    (bound []).ready ∧ (bound []).source = some { bits := [], pos := 0, eos := false } := by decide +kernel

theorem witness_HeadersAreSelfDelimiting :
    let bits := treeAaab.hdr ++ (HTree.leaf 5).hdr ++ [true]
    (bound bits).status.faulted = false ∧ (bound bits).source = some { bits := bits, pos := 0, eos := false } ∧
      bits.drop 0 = treeAaab.hdr ++ (HTree.leaf 5).hdr ++ [true] ∧ treeAaab.size ≤ 513 ∧ (HTree.leaf 5).size ≤ 513 := by
  decide +kernel

theorem witness_WrhdrRepeatsReadHeader :
    let s := bound treeAaab.hdr
    s.status.faulted = false ∧ s.source = some { bits := treeAaab.hdr, pos := 0, eos := false } ∧
      s.sink = some { out := [], closed := false } ∧ exec .rdhdr s = .next (after (exec .rdhdr s)) ∧
      (after (exec .rdhdr s)).status.faulted = false :=
  ⟨by decide +kernel, by decide +kernel, by decide +kernel, eq_next_of_goesOn (by decide +kernel), by decide +kernel⟩

theorem witness_MagicTokenEndsRdmagic : (startMagic (bound [])).activity = .magic := by decide

theorem witness_InodeTokenAllocates :
    (startTree (bound [])).activity = .tree ∧ (startTree (bound [])).nalloc.toNat < 512 ∧ (511 : Idx).toNat < 512 := by
  decide +kernel

/-- A leaf that is the whole tree, the last leaf, and a left leaf; at the highest indices. -/
theorem witness_LeafTokenAllocates :
    let s := startTree (bound [])
    let stk := fun fs => { s with nalloc := 511, scratch := { s.scratch with stk := fs } }
    (s.activity = .tree ∧ s.scratch.stk = ([] : List Idx).map (fun p => { idx := p, leftDone := true }) ∧
      s.nalloc.toNat < 513) ∧ (512 : Idx).toNat < 513 ∧
    (stk [⟨3, true⟩]).scratch.stk = [(3 : Idx)].map (fun p => { idx := p, leftDone := true }) ∧
    ((stk [⟨3, true⟩, ⟨2, false⟩, ⟨0, true⟩]).scratch.stk =
        [(3 : Idx)].map (fun p => { idx := p, leftDone := true }) ++ { idx := 2, leftDone := false } :: [⟨0, true⟩] ∧
      (stk []).nalloc.toNat < 512) := by decide +kernel

theorem witness_TokensRespectCapacity :
    let s := { startTree (bound []) with nalloc := 512 }
    let t := { s with scratch := { s.scratch with stk := [⟨4, true⟩, ⟨0, false⟩] } }
    s.ready ∧ s.activity = .tree ∧ s.nalloc.toNat = 512 ∧
      t.scratch.stk = [(4 : Idx)].map (fun p => { idx := p, leftDone := true }) ++ { idx := 0, leftDone := false } :: [] := by
  decide +kernel

theorem witness_RefusalsOfTheModel :
    State.reset.activity = .idle ∧ isCommand .wInode = false ∧ State.reset.status.faulted = false ∧
      State.reset.source = none ∧ sinkRefuses State.reset .sinkUnbound ∧
      sinkRefuses (after (sinkClose 0 (bound []))) .sinkClosed ∧ (after (sinkClose 0 (bound []))).status.faulted = false :=
  ⟨rfl, rfl, rfl, rfl, .inl ⟨rfl, rfl⟩, .inr ⟨_, rfl, rfl, rfl⟩, rfl⟩

/-- The flags and streams under which ENCODE, WRHDR, DECODE and the macros reach a port; the widths 0 and 33. -/
theorem witness_RefusalsOfTheModel_reached :
    let noSink := { coded with sink := none }
    let src : Source := { bits := bytesBits aaab, pos := 32, eos := true }
    let bits := bitsOf 32 0xFACE8201 ++ treeAaab.hdr ++ [true] ++ []
    ({ coded with source := none } : State).status.codeValid = true ∧ noSink.status.treeValid = true ∧
      (noSink.readNode noSink.root).map NodeEntry.kind = some .internal ∧ noSink.source = some src ∧
      noSink.status.codeValid = true ∧ src.rewound.bytes = aaab ∧ (∀ k < 256, src.bytes.count k ≤ 2 ^ noSink.cntW - 1) ∧
      (97, [true]) ∈ treeAaab.codes [] ∧ (97 : Sym) ≠ 256 ∧ ({ headed [true] with sink := none } : State).tree = some treeAaab ∧
      ((headed [true]).source.map fun src => (src.eos, src.bits.drop src.pos)) = some (false, [true] ++ []) ∧
      treeAaab.size ≤ 513 ∧ bits.drop 0 = bitsOf 32 0xFACE8201 ++ treeAaab.hdr ++ [true] ++ [] ∧
      (0 = 0 ∨ 32 < 0) ∧ (33 = 0 ∨ 32 < 33) := by decide +kernel

theorem codes_of_aaab (b : Nat) (h : b ∈ aaab ∨ b = 256) :
    (coded.codeAt b).valid = true ∧ 1 ≤ (coded.codeAt b).len.toNat := by
  have all : ∀ b ∈ aaab ++ [256], (coded.codeAt b).valid = true ∧ 1 ≤ (coded.codeAt b).len.toNat := by decide +kernel
  exact all b (by simpa using h)

/-- `coded` stands at the end of its source; ENCODE rewinds it. -/
theorem witness_EncodeWritesCodes :
    let src : Source := { bits := bytesBits aaab, pos := 32, eos := true }
    coded.status.faulted = false ∧ coded.status.codeValid = true ∧ coded.source = some src ∧
      coded.sink = some { out := [], closed := false } ∧ src.rewound.bytes = aaab ∧
      ∀ b, b ∈ aaab ∨ b = 256 → (coded.codeAt b).valid = true ∧ 1 ≤ (coded.codeAt b).len.toNat :=
  ⟨by decide +kernel, by decide +kernel, by decide +kernel, by decide +kernel, by decide +kernel, codes_of_aaab⟩

theorem witness_EncodeFaultsWithoutCode :
    let src : Source := { bits := bytesBits [0x61, 0x63], pos := 0, eos := false }
    let s := { coded with source := some src }
    s.ready ∧ s.status.codeValid = true ∧ s.sink = some { out := [], closed := false } ∧
      src.rewound.bytes = [0x61] ++ 0x63 :: [] ∧
      (∀ b ∈ [0x61], (s.codeAt b).valid = true ∧ 1 ≤ (s.codeAt b).len.toNat) ∧ (s.codeAt 0x63).valid = false := by
  decide +kernel

/-- Codes of 1, 32, 33 and 256 bits. -/
theorem witness_EmitCutsLongCodes :
    let c := fun n : BitVec 9 => ({ valid := true, len := n, val := 1 } : CodeEntry)
    (bound []).sink = some { out := [], closed := false } ∧ 1 ≤ (c 1).len.toNat ∧ (c 32).len.toNat ≤ 32 ∧
      (c 32).val.toNat < 2 ^ (c 32).len.toNat ∧ (codeWrites (c 33)).length = 2 ∧ (codeWrites (c 256)).length = 8 := by
  decide +kernel

theorem witness_DecodeWritesSymbols :
    let l := HTree.node (.leaf 98) (.leaf 256)
    let ms : List (Sym × Bits) := [(97, [true]), (98, [false, false])]
    let s := headed (pathBits ms ++ [false, true] ++ [true])
    s.status.faulted = false ∧ s.status.treeValid = true ∧ s.tree = some (.node l (.leaf 97)) ∧
      (s.source.map fun src => (src.eos, src.bits.drop src.pos)) =
        some (false, pathBits ms ++ [false, true] ++ [true]) ∧
      s.sink = some { out := [], closed := false } ∧
      (∀ m ∈ ms, m ∈ (HTree.node l (.leaf 97)).codes [] ∧ m.1 ≠ 256) ∧
      (256, [false, true]) ∈ (HTree.node l (.leaf 97)).codes [] := by decide +kernel

theorem witness_DecodeRefusesLoneLeaf :
    let s := runAll [.rdhdr] (bound (HTree.leaf 256).hdr)
    s.ready ∧ s.status.treeValid = true ∧ (s.readNode s.root).map NodeEntry.kind = some .leaf := by decide +kernel

/-- The end of the stream between two codes, and inside one. -/
theorem witness_CutPayloadIsMalformed :
    let l := HTree.node (.leaf 98) (.leaf 256)
    let ms : List (Sym × Bits) := [(97, [true])]
    let s := fun q : Bits => headed (pathBits ms ++ q)
    (s []).ready ∧ (s []).status.treeValid = true ∧ (s []).tree = some (.node l (.leaf 97)) ∧
      ((s []).source.map fun src => (src.eos, src.bits.drop src.pos)) = some (false, pathBits ms ++ []) ∧
      ((s [false]).source.map fun src => (src.eos, src.bits.drop src.pos)) = some (false, pathBits ms ++ [false]) ∧
      (s []).sink = some { out := [], closed := false } ∧
      (∀ m ∈ ms, m ∈ (HTree.node l (.leaf 97)).codes [] ∧ m.1 ≠ 256) ∧
      (98, [false, false]) ∈ (HTree.node l (.leaf 97)).codes [] ∧ ([] : Bits) <+: [false, false] ∧
      ([] : Bits) ≠ [false, false] ∧ [false] <+: [false, false] ∧ [false] ≠ [false, false] := by decide +kernel

theorem witness_DecodeAlwaysEnds :
    let s := headed []
    s.ready ∧ s.status.treeValid = true ∧ s.treeOk = true ∧ s.source.isSome = true ∧
      s.sink = some { out := [], closed := false } := by decide +kernel

theorem witness_MacrosAreTheirSequences : (bound []).status.faulted = false ∧ (bound []).seq = [] := by decide +kernel

/-- An input kept unchanged, and one whose second scan meets a byte that was not counted. -/
theorem witness_CompressWritesStream :
    let src : Source := { bits := bytesBits aaab, pos := 0, eos := false }
    let changed : Source := { src with rescan := some (bytesBits [0x61, 0x63]) }
    let s := bound (bytesBits aaab)
    s.ready ∧ s.source = some src ∧ s.sink = some { out := [], closed := false } ∧
      (∀ k < 256, src.bytes.count k ≤ 2 ^ s.cntW - 1) ∧ src.pos = 0 ∧ src.eos = false ∧ src.rescan = none ∧
      (∀ b ∈ src.rewound.bytes, hasLeaf src.bytes b) ∧ changed.bytes = aaab ∧
      changed.rewound.bytes = [0x61] ++ 0x63 :: [] ∧ (∀ b ∈ [0x61], hasLeaf aaab b) ∧ ¬ hasLeaf aaab 0x63 := by
  refine ⟨by decide +kernel, by decide +kernel, by decide +kernel, by decide +kernel, rfl, rfl, rfl, ?_, by decide +kernel,
    by decide +kernel, ?_, ?_⟩
  · intro b h; exact .inl h
  · intro b h; exact .inl (by simp at h; subst h; decide)
  · rintro (h | h)
    · revert h; decide
    · exact absurd h.1 (by decide)

theorem witness_DecompressReadsStream :
    let l := HTree.node (.leaf 98) (.leaf 256)
    let ms : List (Sym × Bits) := [(97, [true]), (98, [false, false])]
    let bits := bitsOf 32 0xFACE8201 ++ (HTree.node l (.leaf 97)).hdr ++ pathBits ms ++ [false, true] ++ [true]
    (bound bits).ready ∧ (bound bits).source = some { bits := bits, pos := 0, eos := false } ∧
      (HTree.node l (.leaf 97)).size ≤ 513 ∧
      (∀ m ∈ ms, m ∈ (HTree.node l (.leaf 97)).codes [] ∧ m.1 ≠ 256) ∧
      (256, [false, true]) ∈ (HTree.node l (.leaf 97)).codes [] ∧ bits.drop 0 = bits := by decide +kernel

theorem witness_WrongMagicEndsDecompress :
    (bound [true]).ready ∧ (bound [true]).source = some { bits := [true], pos := 0, eos := false } ∧
      ([true].drop 0).take 32 ≠ bitsOf 32 0xFACE8201 := by decide +kernel

theorem witness_RoundTrip :
    let bytes : List (BitVec 8) := [0x61, 0x61, 0x62]
    let s := bound (bitsOfBytes bytes)
    s.ready ∧ s.source = some { bits := bitsOfBytes bytes, pos := 0, eos := false } ∧
      s.sink = some { out := [], closed := false } ∧ ∀ b, bytes.count b ≤ 2 ^ s.cntW - 1 :=
  ⟨by decide +kernel, by decide +kernel, by decide +kernel,
    fun _ => le_trans List.count_le_length (by decide +kernel)⟩

/-- A stream cut at 31, 63, 70 and 71 of its 71 bits. -/
theorem witness_CutStreamFaultsByPlace :
    let s := bound (bytesBits aaab)
    let t := after (exec .compress s)
    let z := outBits t
    s.ready ∧ s.sink = some { out := [], closed := false } ∧ exec .compress s = .next t ∧ t.ready ∧
      t.tree = some treeAaab ∧ t.sink = some { out := z, closed := false } ∧ z.length = 71 ∧ treeAaab.hdr.length = 32 ∧
      ∀ k ∈ [31, 63, 70, 71], (bound (z.take k)).ready :=
  ⟨by decide +kernel, by decide +kernel, eq_next_of_goesOn (by decide +kernel), by decide +kernel, by decide +kernel,
    by decide +kernel, by decide +kernel, by decide +kernel, by decide +kernel⟩

/-- For PortsChangeOnlyByTheirRules and WritersOfNonScratchState. -/
theorem witness_Frames :
    let s := bound (bytesBits aaab)
    exec .count s = .next (after (exec .count s)) ∧ exec .wrmagic s = .next (after (exec .wrmagic s)) ∧
      Instr.wrmagic ≠ .count ∧ Instr.wrmagic ≠ .compress ∧ s.sink = some { out := [], closed := false } ∧
      (after (exec .wrmagic s)).sink = some { out := bitsOf 32 0xFACE8201, closed := false } :=
  ⟨eq_next_of_goesOn (by decide +kernel), eq_next_of_goesOn (by decide +kernel), by decide, by decide,
    by decide +kernel, by decide +kernel⟩

/-- In the middle of RDHDR. -/
theorem witness_StepKeepsRegistersOk :
    let s := startTree (bound treeAaab.hdr)
    s.registersOk = true ∧ step s = .next (after (step s)) :=
  ⟨by decide +kernel, eq_next_of_goesOn (by decide +kernel)⟩

/-- With every flag set. -/
theorem witness_StepKeepsFlagsTrue :
    let s := { coded with host := [.writeCmd 0x6] }
    s.ok = true ∧ s.status.codeValid = true ∧ step s = .next (after (step s)) :=
  ⟨by decide +kernel, by decide +kernel, eq_next_of_goesOn (by decide +kernel)⟩

theorem witness_EveryCommandCompletes :
    isCommand .encode = true ∧ (bound []).ok = true ∧ (bound []).source = some { bits := [], pos := 0, eos := false } ∧
      (bound []).sink = some { out := [], closed := false } := by decide +kernel

theorem nodeAlike_refl (built : Bool) (e : NodeEntry) : nodeAlike built e e = true := by
  unfold nodeAlike
  cases e.kind <;> simp

/-- A tree read from a header; the counts, the codes and the cursor of the two states differ. -/
theorem witness_UnwrittenStateIsNeverRead :
    let s := headed []
    let t := { s with cur := 7, freq := Vector.replicate 257 1, code := Vector.replicate 257 default, pq := [3] }
    isCommand .wrhdr = true ∧ s.status.treeValid = true ∧ s.alike t := by
  refine ⟨rfl, by decide +kernel, ?_⟩
  have noFreq : (headed []).status.freqValid = false := by decide +kernel
  have noCode : (headed []).status.codeValid = false := by decide +kernel
  refine ⟨rfl, rfl, rfl, rfl, rfl, rfl, rfl, rfl, rfl, rfl, rfl, ?_, ?_, ?_⟩
  · intro h; rw [noFreq] at h; cases h
  · intro _; exact ⟨rfl, rfl, fun i _ => nodeAlike_refl _ _⟩
  · intro h; rw [noCode] at h; cases h

end Sys2Proof.Tests
end

section
/-! SUPPORT. What is known of an outcome's next state: one rule for each way the meanings of the instructions are put together
(sequencing, the ignored command, the prerequisite, the release of the scratch registers). -/

namespace Sys2Proof.Machine

/-- The next state has the property, if the outcome is a next state; a stop has none. -/
def AllNext (P : State → Prop) (o : Outcome) : Prop := ∀ t, o = .next t → P t

variable {P Q : State → Prop} {s : State} {o : Outcome} {f : State → Outcome}

@[simp] theorem allNext_next : AllNext P (.next s) ↔ P s := by simp [AllNext]

@[simp] theorem allNext_fault (r : Fault) : AllNext P (.fault r) := by simp [AllNext]

@[simp] theorem allNext_refused (r : Refusal) : AllNext P (.refused r) := by simp [AllNext]

theorem AllNext.andThen (ho : AllNext P o) (hf : ∀ s, P s → AllNext Q (f s)) : AllNext Q (andThen o f) := by
  intro t ht
  obtain ⟨s, hs, hst⟩ := andThen_eq_next.1 ht
  exact hf s (ho s hs) t hst

theorem allNext_unlessFaulted (hs : P s) (hf : AllNext P (f s)) : AllNext P (unlessFaulted s f) := by
  intro t ht
  rcases unlessFaulted_eq_next ht with ⟨-, rfl⟩ | ⟨-, hst⟩
  · exact hs
  · exact hf t hst

theorem allNext_requireFlags {c : Bool} (hf : AllNext P (f s)) (hr : P (raise .sequence s)) :
    AllNext P (requireFlags c s f) := by
  intro t ht
  rcases requireFlags_eq_next ht with ⟨-, hst⟩ | ⟨-, rfl⟩
  · exact hf t hst
  · exact hr

theorem AllNext.releaseScratch (ho : AllNext P o) (hP : ∀ s, P s → Q s.freeScratch) : AllNext Q (releaseScratch o) :=
  ho.andThen fun s hs => allNext_next.2 (hP s hs)

/-- A fetch of a wire token either leaves a state with the first property, or ends the operation with the second (30_encoding.md
R90). -/
def Fetched.Leaves (P Q : State → Prop) : Fetched → Prop
  | .got _ t => P t
  | .ended o => AllNext Q o

theorem Fetched.Leaves.mono {Q' : State → Prop} {w : Fetched} (h : w.Leaves P Q) (hQ : ∀ t, Q t → Q' t) :
    w.Leaves P Q' := by
  cases w with
  | got i t => exact h
  | ended o => exact fun t ht => hQ t (h t ht)

theorem allNext_takeToken (hf : (fetchWire s).Leaves P Q) (hi : ∀ i t, P t → AllNext Q (runToken i t)) :
    AllNext Q (takeToken s) := by
  unfold takeToken
  cases hw : fetchWire s with
  | got i t => rw [hw] at hf; exact hi i t hf
  | ended o => rw [hw] at hf; exact hf

end Sys2Proof.Machine
end

section
/-! SUPPORT. The stream's side of a step: no wire token is a command (30_encoding.md R90), so a step that takes a token does what
RDMAGIC and RDHDR do with it. -/

namespace Sys2Proof.Machine

theorem isCommand_eq_false_of_decode_wire {bits : Bits} {i : Instr} (h : decode (.wire bits) = .ok i) :
    isCommand i = false := by
  simp only [decode, decodeWire] at h
  split at h
  · cases h; rfl
  · split at h
    · split at h <;> cases h
      rfl
    · split at h
      · split at h <;> cases h
        rfl
      · cases h

theorem exec_eq_runToken {i : Instr} (h : isCommand i = false) (s : State) : exec i s = runToken i s := by
  cases i with
  | wMagic | wInode | wLeaf => rfl
  | _ => cases h

theorem isCommand_eq_false_of_fetchMagic {s t : State} {i : Instr} (h : fetchMagic s = .got i t) : isCommand i = false := by
  unfold fetchMagic at h
  split at h
  · cases h
  · cases h
  · split at h <;> cases h
    exact isCommand_eq_false_of_decode_wire ‹_›

theorem isCommand_eq_false_of_fetchTreeToken {s t : State} {i : Instr} (h : fetchTreeToken s = .got i t) :
    isCommand i = false := by
  unfold fetchTreeToken at h
  split at h
  · cases h
  · cases h
  · split at h
    · split at h <;> cases h
      exact isCommand_eq_false_of_decode_wire ‹_›
    · split at h
      · cases h
      · cases h
      · split at h <;> cases h
        exact isCommand_eq_false_of_decode_wire ‹_›

theorem isCommand_eq_false_of_fetchWire {s t : State} {i : Instr} (h : fetchWire s = .got i t) : isCommand i = false := by
  cases ha : s.activity with
  | idle => simp [fetchWire, ha] at h
  | magic => exact isCommand_eq_false_of_fetchMagic (by simpa [fetchWire, ha] using h)
  | tree => exact isCommand_eq_false_of_fetchTreeToken (by simpa [fetchWire, ha] using h)

theorem runFetched_fetchWire (s : State) : runFetched (fetchWire s) = takeToken s := by
  unfold takeToken
  cases h : fetchWire s with
  | got i t => exact exec_eq_runToken (isCommand_eq_false_of_fetchWire h) t
  | ended o => rfl

theorem step_of_activity_ne_idle {s : State} (h : s.activity ≠ .idle) : step s = takeToken s := by
  unfold step
  cases ha : s.activity with
  | idle => exact absurd ha h
  | magic | tree => exact runFetched_fetchWire s

end Sys2Proof.Machine
end

section
/-! SUPPORT. The invariant of the registers (`State.registersOk`) in two halves: a block in which no node of a header is awaited
(`State.Resting`), and one in the middle of RDHDR (`State.AwaitsNode`). Every named update of the state keeps what it must. -/

namespace Sys2Proof.Machine

/-- The registers agree and lie in their ranges, whatever runs (00_scope.md R8, 10_state.md R22, R30, R38, R41, 20_memory.md
R60). -/
structure State.InRange (s : State) : Prop where
  err_faulted : s.err.isSome = s.status.faulted
  built_valid : s.status.treeBuilt = true → s.status.treeValid = true
  nalloc_le   : s.nalloc.toNat ≤ 513
  pq_le       : s.pq.length ≤ 257
  stk_le      : s.scratch.stk.length ≤ 512
  pos_le      : ∀ src, s.source = some src → src.pos ≤ src.bits.length
  cntW_pos    : 1 ≤ s.cntW

/-- The registers agree, and RDHDR does not run. -/
structure State.Resting (s : State) : Prop extends s.InRange where
  not_tree : s.activity ≠ .tree

/-- The registers agree while RDHDR waits for a node: there is room for it, and the stack holds allocated nodes (43_header_codec.md
R171). -/
structure State.AwaitsNode (s : State) : Prop extends s.InRange where
  tree       : s.activity = .tree
  nalloc_lt  : s.nalloc.toNat < 513
  stk_nalloc : s.scratch.stk.length ≤ s.nalloc.toNat

theorem registersOk_iff_inRange (s : State) :
    s.registersOk = true ↔
      s.InRange ∧ (s.activity = .tree → s.nalloc.toNat < 513 ∧ s.scratch.stk.length ≤ s.nalloc.toNat) := by
  constructor
  · intro h
    simp only [State.registersOk, Bool.and_eq_true, Bool.or_eq_true, decide_eq_true_eq, bne_iff_ne] at h
    obtain ⟨⟨⟨⟨⟨⟨⟨herr, hbuilt⟩, hnalloc⟩, hroom⟩, hpq⟩, hstk⟩, hpos⟩, hcnt⟩ := h
    exact ⟨{ err_faulted := eq_of_beq herr, nalloc_le := hnalloc, pq_le := hpq, stk_le := hstk, cntW_pos := hcnt
             built_valid := fun hb => hbuilt.resolve_left (by simp [hb])
             pos_le := fun src hs => by simpa [hs] using hpos }, fun ht => hroom.resolve_left (not_not.2 ht)⟩
  · rintro ⟨⟨herr, hbuilt, hnalloc, hpq, hstk, hpos, hcnt⟩, hroom⟩
    grind [State.registersOk]

/-- The registers agree, whether RDHDR runs or not: the invariant `State.registersOk`. -/
def State.Agrees (s : State) : Prop := s.Resting ∨ s.AwaitsNode

theorem registersOk_iff (s : State) : s.registersOk = true ↔ s.Agrees := by
  rw [registersOk_iff_inRange]
  constructor
  · rintro ⟨h, hroom⟩
    by_cases ht : s.activity = .tree
    · exact .inr { h with tree := ht, nalloc_lt := (hroom ht).1, stk_nalloc := (hroom ht).2 }
    · exact .inl { h with not_tree := ht }
  · rintro (h | h)
    · exact ⟨h.toInRange, fun ht => absurd ht h.not_tree⟩
    · exact ⟨h.toInRange, fun _ => ⟨h.nalloc_lt, h.stk_nalloc⟩⟩

namespace State

variable {s t : State}

/-! ### Faults and scratch -/

/-- A fault ends RDHDR too (60_exceptions.md R230). -/
theorem InRange.raise (h : s.InRange) (e : ErrKind) : (raise e s).Resting :=
  { h with err_faulted := by simp, not_tree := by simp }

theorem Resting.freeScratch (h : s.Resting) : s.freeScratch.Resting :=
  { h with stk_le := freeScratchOf_stk_length s.cntW s.draws }

theorem Resting.clear (h : s.Resting) : (returnFromFault s).Resting :=
  { h with err_faulted := rfl, built_valid := nofun, nalloc_le := by simp, pq_le := by simp }

/-! ### Flags and arrays -/

theorem Resting.invalidateFreq (h : s.Resting) : s.invalidateFreq.Resting := { h with built_valid := nofun }

theorem Resting.invalidateTree (h : s.Resting) : s.invalidateTree.Resting := { h with built_valid := nofun }

theorem Resting.validateBuiltTree (h : s.Resting) : s.validateBuiltTree.Resting := { h with built_valid := fun _ => rfl }

theorem Resting.invalidateCode (h : s.Resting) : s.invalidateCode.Resting := { h with }

theorem Resting.validateFreq (h : s.Resting) : s.validateFreq.Resting := { h with }

theorem Resting.validateCode (h : s.Resting) : s.validateCode.Resting := { h with }

theorem Resting.setDState (h : s.Resting) (d : DState) : (s.setDState d).Resting := { h with }

theorem Resting.setFreq (h : s.Resting) (k n : Nat) : (s.setFreq k n).Resting := { h with }

theorem Resting.zeroFreq (h : s.Resting) : s.zeroFreq.Resting := { h with }

theorem Resting.dropCodes (h : s.Resting) : s.dropCodes.Resting := { h with }

theorem Resting.withCode (h : s.Resting) (code : Vector CodeEntry 257) : ({ s with code := code } : State).Resting :=
  { h with }

theorem Resting.withCur (h : s.Resting) (cur : Idx) : ({ s with cur := cur } : State).Resting := { h with }

theorem Resting.cursorToRoot (h : s.Resting) : s.cursorToRoot.Resting := (h.withCur s.root).setDState .atRoot

theorem Resting.withSeq (h : s.Resting) (seq : List MacroStep) : ({ s with seq := seq } : State).Resting := { h with }

theorem Resting.withHost (h : s.Resting) (host : List HostAction) : ({ s with host := host } : State).Resting :=
  { h with }

/-! ### Ports -/

theorem InRange.withSource (h : s.InRange) {src : Source} (hp : src.pos ≤ src.bits.length) (trace : List PortEvent) :
    ({ s with source := some src, trace := trace } : State).InRange :=
  { h with pos_le := by rintro _ ⟨⟩; exact hp }

theorem Resting.withSource (h : s.Resting) {src : Source} (hp : src.pos ≤ src.bits.length) (trace : List PortEvent) :
    ({ s with source := some src, trace := trace } : State).Resting :=
  { h.toInRange.withSource hp trace with not_tree := h.not_tree }

theorem AwaitsNode.withSource (h : s.AwaitsNode) {src : Source} (hp : src.pos ≤ src.bits.length)
    (trace : List PortEvent) : ({ s with source := some src, trace := trace } : State).AwaitsNode :=
  { h.toInRange.withSource hp trace with tree := h.tree, nalloc_lt := h.nalloc_lt, stk_nalloc := h.stk_nalloc }

theorem Resting.withSink (h : s.Resting) (snk : Option Sink) (trace : List PortEvent) :
    ({ s with sink := snk, trace := trace } : State).Resting := { h with }

theorem Resting.srcRead_data {n v : Nat} (h : s.Resting) (hr : srcRead n s = .data v t) : t.Resting := by
  obtain ⟨src, -, -, -, -, hp, -, rfl⟩ := srcRead_eq_data hr
  exact h.withSource hp _

theorem Resting.srcRead_noData {n : Nat} (h : s.Resting) (hr : srcRead n s = .noData t) : t.Resting := by
  obtain ⟨src, hs, -, -, -, rfl⟩ := srcRead_eq_noData hr
  exact h.withSource (src := { src with eos := true }) (h.pos_le src hs) _

theorem AwaitsNode.srcRead_data {n v : Nat} (h : s.AwaitsNode) (hr : srcRead n s = .data v t) : t.AwaitsNode := by
  obtain ⟨src, -, -, -, -, hp, -, rfl⟩ := srcRead_eq_data hr
  exact h.withSource hp _

theorem AwaitsNode.srcRead_noData {n : Nat} (h : s.AwaitsNode) (hr : srcRead n s = .noData t) : t.AwaitsNode := by
  obtain ⟨src, hs, -, -, -, rfl⟩ := srcRead_eq_noData hr
  exact h.withSource (src := { src with eos := true }) (h.pos_le src hs) _

theorem Resting.srcReset (h : s.Resting) : AllNext Resting (srcReset s) := by
  intro t ht
  obtain ⟨src, -, rfl⟩ := srcReset_eq_next.1 ht
  exact h.withSource (by simp) _

theorem Resting.sinkWrite (h : s.Resting) (n v : Nat) : AllNext Resting (sinkWrite n v s) := by
  intro t ht
  obtain ⟨snk, -, -, -, -, rfl⟩ := sinkWrite_eq_next.1 ht
  exact h.withSink _ _

theorem Resting.sinkClose (h : s.Resting) (pad : BitVec 7) : AllNext Resting (sinkClose pad s) := by
  intro t ht
  obtain ⟨snk, -, -, rfl⟩ := sinkClose_eq_next.1 ht
  exact h.withSink _ s.trace

end State
end Sys2Proof.Machine
end

section
/-! SUPPORT. BUILD keeps the registers in range: it allocates one node for each leaf and one for each merge, so `NALLOC` and `PQN`
together never exceed 514 (41_tree_builder.md R130 to R135). -/

namespace Sys2Proof.Machine

/-- BUILD has placed `n` leaves and merged none: each is a node and waits in `PQ`. -/
structure State.Placed (n : Nat) (s : State) : Prop extends s.Resting where
  nalloc_eq : s.nalloc.toNat = n
  pq_eq     : s.pq.length = n

/-- BUILD merges: there is room for the nodes still to be allocated. -/
structure State.Merging (s : State) : Prop extends s.Resting where
  nalloc_pq_le : s.nalloc.toNat + s.pq.length ≤ 514

variable {s t : State} {i : Idx} {n : Nat}

/-! ### removeMin -/

theorem leastOf_mem (s : State) {is : List Idx} (h : s.leastOf is = some i) : i ∈ is := by
  induction is generalizing i with
  | nil => cases h
  | cons k is ih =>
    unfold State.leastOf at h
    cases hl : s.leastOf is with
    | none => simp_all
    | some j =>
      have hj := ih hl
      simp only [hl] at h
      split at h <;> cases h
      · exact List.mem_cons_of_mem _ hj
      · exact List.mem_cons_self

/-- Everything `removeMin()` can do when `PQ` is not empty (R132). -/
theorem removeMin_eq_some (h : s.removeMin = some (i, t)) : i ∈ s.pq ∧ t = { s with pq := s.pq.erase i } := by
  unfold State.removeMin at h
  cases hl : s.leastOf s.pq with
  | none => simp [hl] at h
  | some j =>
    simp only [hl, Option.some.injEq, Prod.mk.injEq] at h
    obtain ⟨rfl, rfl⟩ := h
    exact ⟨leastOf_mem s hl, rfl⟩

theorem removeMin_pq_length (h : s.removeMin = some (i, t)) : t.pq.length + 1 = s.pq.length := by
  obtain ⟨hi, rfl⟩ := removeMin_eq_some h
  have pos : 0 < s.pq.length := List.length_pos_of_mem hi
  simp only [List.length_erase_of_mem hi]
  omega

theorem State.Resting.removeMin (h : s.Resting) (hr : s.removeMin = some (i, t)) : t.Resting := by
  have len := removeMin_pq_length hr
  obtain ⟨-, rfl⟩ := removeMin_eq_some hr
  exact { h with pq_le := by have := h.pq_le; omega }

/-! ### Placing leaves -/

/-- `NALLOC` does not wrap: it is 10 bits wide and at most 513. -/
theorem toNat_succ_of_lt (h : i.toNat < 513) : (i + 1).toNat = i.toNat + 1 := by
  rw [BitVec.toNat_add]
  simp
  omega

/-- A new node that is inserted at once: a leaf (R131) or a merge (R134). -/
theorem State.Resting.allocNode_insertPq (h : s.Resting) (hn : s.nalloc.toNat < 513) (hq : s.pq.length < 257)
    (upd : NodeEntry → NodeEntry) : ((s.allocNode upd).insertPq s.nalloc).Resting :=
  { h with
    nalloc_le := by simp only [insertPq_nalloc, allocNode_nalloc, toNat_succ_of_lt hn]; omega
    pq_le := by simp only [insertPq_pq, allocNode_pq, List.length_append, List.length_singleton]; omega }

theorem State.Placed.addLeaf (h : s.Placed n) (hn : n < 257) (sym : Sym) (w : Nat) :
    (addLeaf sym w s).Placed (n + 1) :=
  have hlt : s.nalloc.toNat < 513 := by have := h.nalloc_eq; omega
  { h.toResting.allocNode_insertPq hlt (h.pq_eq ▸ hn) _ with
    nalloc_eq := by rw [addLeaf_nalloc, toNat_succ_of_lt hlt, h.nalloc_eq]
    pq_eq := by simp [h.pq_eq] }

/-- One leaf for each count above 0 (R131). -/
theorem State.Placed.addLeaves {counts : List Nat} (h : s.Placed n) (k : Nat)
    (hn : n + counts.countP (0 < ·) ≤ 257) :
    (addLeaves k counts s).Placed (n + counts.countP (0 < ·)) := by
  induction counts generalizing k n s with
  | nil => exact h
  | cons c counts ih =>
    unfold Machine.addLeaves
    by_cases hc : 0 < c
    · have count : n + (c :: counts).countP (0 < ·) = n + 1 + counts.countP (0 < ·) := by simp [hc]; omega
      rw [count] at hn ⊢
      rw [if_pos hc]
      exact ih (h.addLeaf (by omega) _ c) (k + 1) hn
    · have count : (c :: counts).countP (0 < ·) = counts.countP (0 < ·) := by simp [hc]
      rw [count] at hn ⊢
      rw [if_neg hc]
      exact ih h (k + 1) hn

/-- Of an empty input only the sentinel's count can be above 0 (R133). -/
theorem countP_freq_le_one (h : emptyInput s = true) : s.freq.toList.countP (0 < ·) ≤ 1 := by
  have zero : (s.freq.toList.take 256).countP (0 < ·) = 0 := by
    rw [List.countP_eq_zero]
    intro c hc
    simpa using List.all_eq_true.1 h c hc
  have last : (s.freq.toList.drop 256).countP (0 < ·) ≤ 1 :=
    le_trans List.countP_le_length (by simp)
  rw [← List.take_append_drop 256 s.freq.toList, List.countP_append]
  omega

/-- BUILD places at most 257 leaves, the filler of an empty input included (R131, R133). -/
theorem State.Resting.placeLeaves (h : s.Resting) : ∃ n ≤ 257, (placeLeaves s).Placed n := by
  have start : ({ s with nalloc := 0, pq := [] } : State).Placed 0 :=
    { h with nalloc_le := by simp, pq_le := by simp, nalloc_eq := rfl, pq_eq := rfl }
  unfold Machine.placeLeaves addFiller
  split
  next he =>
    have few : s.freq.toList.countP (0 < ·) ≤ 1 := countP_freq_le_one (s := s) he
    exact ⟨_, by omega, (start.addLeaf (by omega) _ 0).addLeaves 0 (by omega)⟩
  next =>
    have all : s.freq.toList.countP (0 < ·) ≤ 257 := le_trans List.countP_le_length (by simp)
    exact ⟨_, by omega, start.addLeaves 0 (by omega)⟩

/-! ### Merging -/

theorem State.Placed.merging (h : s.Placed n) (hn : n ≤ 257) : s.Merging :=
  { h with nalloc_pq_le := by rw [h.nalloc_eq, h.pq_eq]; omega }

/-- A merge takes two nodes out of `PQ` and puts the new one in (R134). -/
theorem State.Merging.merge {a b : Idx} {s₁ s₂ : State} (h : s.Merging) (ha : s.removeMin = some (a, s₁))
    (hb : s₁.removeMin = some (b, s₂)) : (addInternal a b s₂).Merging := by
  have rest := (h.toResting.removeMin ha).removeMin hb
  have len₁ := removeMin_pq_length ha
  have len₂ := removeMin_pq_length hb
  have room := h.nalloc_pq_le
  have hpq := h.pq_le
  have nalloc : s₂.nalloc = s.nalloc := by
    rw [(removeMin_eq_some hb).2, (removeMin_eq_some ha).2]
  have hlt : s₂.nalloc.toNat < 513 := by rw [nalloc]; omega
  exact
    { rest.allocNode_insertPq hlt (by omega) _ with
      nalloc_pq_le := by
        rw [addInternal_nalloc, addInternal_pq, toNat_succ_of_lt hlt, nalloc, List.length_append, List.length_singleton]
        omega }

theorem State.Merging.mergeLoop (h : s.Merging) (passes : Nat) : AllNext State.Resting (mergeLoop passes s) := by
  induction passes generalizing s with
  | zero => exact allNext_fault _
  | succ passes ih =>
    unfold Machine.mergeLoop
    split
    · exact allNext_next.2 h.toResting
    · split
      · exact allNext_fault _
      · split
        · exact allNext_fault _
        · exact ih (h.merge ‹_› ‹_›)

theorem State.Resting.takeRoot (h : s.Resting) : AllNext State.Resting (takeRoot s) := by
  unfold Machine.takeRoot
  split
  next => exact allNext_fault _
  next r t hr =>
    have ht : ({ t with root := r } : State).Resting := { h.removeMin hr with }
    exact allNext_next.2 ht.validateBuiltTree

theorem State.Resting.execBuild (h : s.Resting) : AllNext State.Resting (execBuild s) := by
  obtain ⟨n, hn, placed⟩ := h.invalidateTree.placeLeaves
  have built := ((placed.merging hn).mergeLoop Config.nsym.succ).andThen fun _ hs => hs.takeRoot
  exact allNext_unlessFaulted h
    (allNext_requireFlags (built.releaseScratch fun _ hs => hs.freeScratch) (h.raise .sequence))

end Sys2Proof.Machine
end

section
/-! SUPPORT. The operations of the other units, from a block in which RDHDR does not run: each goes from one update of the state or
port transaction to the next, and every one of them keeps the registers in agreement. -/

namespace Sys2Proof.Machine.State

variable {s : State}

/-! ### frequency_counter -/

theorem Resting.countLoop (h : s.Resting) (passes : Nat) : AllNext Resting (countLoop passes s) := by
  induction passes generalizing s with
  | zero => exact allNext_fault _
  | succ passes ih =>
    unfold Machine.countLoop
    cases hr : srcRead 8 s with
    | refused r => exact allNext_refused r
    | noData t => exact allNext_next.2 ((h.srcRead_noData hr).setFreq _ 1).validateFreq
    | data v t =>
      have ht := h.srcRead_data hr
      dsimp only
      split
      · exact ih (ht.setFreq v _)
      · exact allNext_next.2 (ht.raise .countOverflow)

theorem Resting.execCount (h : s.Resting) : AllNext Resting (execCount s) :=
  allNext_unlessFaulted h
    ((h.invalidateFreq.zeroFreq.countLoop s.passes).releaseScratch fun _ ht => ht.freeScratch)

/-! ### canonical_code_generator -/

theorem Resting.recordCode (h : s.Resting) (sym : Sym) (path : Bits) : AllNext Resting (recordCode sym path s) := by
  unfold Machine.recordCode
  split
  · exact allNext_next.2 (h.withCode _)
  · exact allNext_fault _

theorem Resting.codeWalk (h : s.Resting) (depth : Nat) (i : Idx) (path : Bits) :
    AllNext Resting (codeWalk depth i path s) := by
  induction depth generalizing i path s with
  | zero => exact allNext_fault _
  | succ depth ih =>
    unfold Machine.codeWalk
    split
    · exact allNext_fault _
    · split
      · exact h.recordCode _ path
      · exact (ih h _ _).andThen fun _ ht => ih ht _ _

theorem Resting.execGencode (h : s.Resting) : AllNext Resting (execGencode s) := by
  have walked := (h.invalidateCode.dropCodes.codeWalk Config.nodeCap s.root []).andThen
    fun _ ht => allNext_next.2 ht.validateCode
  exact allNext_unlessFaulted h
    (allNext_requireFlags (walked.releaseScratch fun _ ht => ht.freeScratch) (h.raise .sequence))

/-! ### Writing a header -/

theorem Resting.execWrmagic (h : s.Resting) : AllNext Resting (execWrmagic s) :=
  allNext_unlessFaulted h (h.sinkWrite _ _)

theorem Resting.putTree (h : s.Resting) (depth : Nat) (i : Idx) : AllNext Resting (putTree depth i s) := by
  induction depth generalizing i s with
  | zero => exact allNext_fault _
  | succ depth ih =>
    unfold Machine.putTree
    split
    · exact allNext_fault _
    · split
      · exact (h.sinkWrite 1 0).andThen fun _ ht => (ih ht _).andThen fun _ hu => ih hu _
      · exact (h.sinkWrite 1 1).andThen fun _ ht => ht.sinkWrite _ _

theorem Resting.execWrhdr (h : s.Resting) : AllNext Resting (execWrhdr s) :=
  allNext_unlessFaulted h (allNext_requireFlags
    ((h.putTree Config.nodeCap s.root).releaseScratch fun _ ht => ht.freeScratch) (h.raise .sequence))

/-! ### huffman_payload_encoder -/

theorem Resting.emitPieces (h : s.Resting) (pieces r : Nat) (val : BitVec 256) :
    AllNext Resting (emitPieces pieces r val s) := by
  induction pieces generalizing r s with
  | zero => exact allNext_fault _
  | succ pieces ih =>
    unfold Machine.emitPieces
    split
    · exact (h.sinkWrite _ _).andThen fun _ ht => ih ht _
    · exact h.sinkWrite _ _

theorem Resting.emitSentinel (h : s.Resting) : AllNext Resting (emitSentinel s) := by
  unfold Machine.emitSentinel
  split
  · exact h.emitPieces _ _ _
  · exact allNext_fault _

theorem Resting.encodeLoop (h : s.Resting) (passes : Nat) : AllNext Resting (encodeLoop passes s) := by
  induction passes generalizing s with
  | zero => exact allNext_fault _
  | succ passes ih =>
    unfold Machine.encodeLoop
    cases hr : srcRead 8 s with
    | refused r => exact allNext_refused r
    | noData t => exact (h.srcRead_noData hr).emitSentinel
    | data v t =>
      have ht := h.srcRead_data hr
      dsimp only
      split
      · exact AllNext.andThen (ht.emitPieces _ _ _) fun _ hu => ih hu
      · exact allNext_next.2 (ht.raise .noCode)

theorem Resting.execEncode (h : s.Resting) : AllNext Resting (execEncode s) := by
  have encoded := h.srcReset.andThen fun t ht => ht.encodeLoop t.passes
  exact allNext_unlessFaulted h
    (allNext_requireFlags (encoded.releaseScratch fun _ ht => ht.freeScratch) (h.raise .sequence))

/-! ### huffman_payload_decoder -/

theorem Resting.decodeLoop (h : s.Resting) (passes : Nat) : AllNext Resting (decodeLoop passes s) := by
  induction passes generalizing s with
  | zero => exact allNext_fault _
  | succ passes ih =>
    unfold Machine.decodeLoop
    cases hr : srcRead 1 s with
    | refused r => exact allNext_refused r
    | noData t => exact allNext_next.2 ((h.srcRead_noData hr).raise .malformedPayload)
    | data b t =>
      have ht := h.srcRead_data hr
      dsimp only
      split
      · exact allNext_fault _
      · split
        · exact allNext_fault _
        · split
          · exact ih ((ht.withCur _).setDState .descending)
          · split
            · exact allNext_next.2 ((ht.withCur _).setDState .terminated)
            · exact (ht.sinkWrite 8 _).andThen fun _ hu => ih hu.cursorToRoot

theorem Resting.execDecode (h : s.Resting) : AllNext Resting (execDecode s) := by
  refine allNext_unlessFaulted h (allNext_requireFlags ?_ (h.raise .sequence))
  split
  · exact allNext_fault _
  · split
    · exact allNext_next.2 (h.raise .degenerateTree)
    · exact h.cursorToRoot.decodeLoop s.passes

end Sys2Proof.Machine.State
end

section
/-! SUPPORT. Reading a header token by token: a token taken while a node is awaited leaves the next node awaited, or RDHDR ended
(43_header_codec.md R163, R164, R171). -/

namespace Sys2Proof.Machine.State

variable {s : State}

/-! ### Fetching a token -/

theorem Resting.fetchMagic (h : s.Resting) : (fetchMagic s).Leaves Resting Resting := by
  unfold Machine.fetchMagic
  cases hr : srcRead Config.magicW s with
  | refused r => exact allNext_refused r
  | noData t => exact allNext_next.2 ((h.srcRead_noData hr).raise .illegalHeader)
  | data v t =>
    have ht := h.srcRead_data hr
    dsimp only
    split
    · exact ht
    · exact allNext_next.2 (ht.raise .illegalHeader)

theorem InRange.raiseInTree (h : s.InRange) (e : ErrKind) : AllNext Resting (raiseInTree e s) :=
  allNext_next.2 (h.raise e).freeScratch

/-- The index of the node whose symbol is missing has been taken (R170). -/
theorem AwaitsNode.takeIndex (h : s.AwaitsNode) : ({ s with nalloc := s.nalloc + 1 } : State).InRange :=
  { h with nalloc_le := by have := h.nalloc_lt; rw [toNat_succ_of_lt h.nalloc_lt]; omega }

theorem AwaitsNode.fetchTreeToken (h : s.AwaitsNode) : (fetchTreeToken s).Leaves AwaitsNode Resting := by
  unfold Machine.fetchTreeToken
  cases hr : srcRead 1 s with
  | refused r => exact allNext_refused r
  | noData t => exact (h.srcRead_noData hr).raiseInTree .malformedTree
  | data flag t =>
    have ht := h.srcRead_data hr
    dsimp only
    split
    · split
      · exact ht
      · exact ht.raiseInTree .malformedTree
    · cases hr' : srcRead Config.symfW t with
      | refused r => exact allNext_refused r
      | noData u => exact (ht.srcRead_noData hr').takeIndex.raiseInTree .malformedTree
      | data v u =>
        have hu := ht.srcRead_data hr'
        dsimp only
        split
        · exact hu
        · exact hu.raiseInTree .malformedTree

theorem Resting.fetchWire (h : s.Resting) : (fetchWire s).Leaves Resting Resting := by
  unfold Machine.fetchWire
  cases ha : s.activity with
  | idle => exact allNext_refused _
  | magic => exact h.fetchMagic
  | tree => exact absurd ha h.not_tree

theorem AwaitsNode.fetchWire (h : s.AwaitsNode) : (fetchWire s).Leaves AwaitsNode Resting := by
  unfold Machine.fetchWire
  rw [h.tree]
  exact h.fetchTreeToken

/-! ### The meaning of a token -/

theorem Resting.execWMagic (h : s.Resting) : AllNext Resting (execWMagic s) := by
  unfold Machine.execWMagic
  cases s.activity with
  | magic => exact allNext_next.2 { h with not_tree := nofun }
  | idle | tree => exact allNext_refused _

/-- A token has allocated its node; the stack holds allocated nodes. -/
structure AfterNode (stk : List Frame) (s : State) : Prop extends s.InRange where
  tree       : s.activity = .tree
  stk_nalloc : stk.length ≤ s.nalloc.toNat

theorem AfterNode.awaitNode {stk : List Frame} (h : s.AfterNode stk) : AllNext Agrees (awaitNode stk s) := by
  intro t ht
  rcases awaitNode_eq_next ht with ⟨room, rfl⟩ | ⟨-, rfl⟩
  · have le := h.stk_nalloc
    have short : stk.length ≤ 512 := by omega
    exact .inr { h with stk_le := short, nalloc_lt := room }
  · exact .inl (h.raise .treeOverflow).freeScratch

theorem AfterNode.setChildren {stk : List Frame} (h : s.AfterNode stk) (i l r : Idx) :
    (setChildren i l r s).AfterNode stk := { h with }

theorem AfterNode.withSym {stk : List Frame} (h : s.AfterNode stk) (sym : Sym) :
    ({ s with scratch := { s.scratch with sym := sym } } : State).AfterNode stk := { h with }

theorem InRange.endTree (h : s.InRange) (r : Idx) : AllNext Agrees (endTree r s) := by
  have ended : ({ s with root := r, activity := .idle } : State).validateReadTree.Resting :=
    { h with built_valid := fun _ => rfl, not_tree := nofun }
  exact allNext_next.2 (.inl ended.freeScratch)

theorem AfterNode.returnSubtree {stk : List Frame} (h : s.AfterNode stk) (i : Idx) :
    AllNext Agrees (returnSubtree stk i s) := by
  induction stk generalizing i s with
  | nil => exact h.endTree i
  | cons frame stk ih =>
    obtain ⟨p, leftDone⟩ := frame
    cases leftDone with
    | false => exact AfterNode.awaitNode { h with }
    | true => exact ih { h.setChildren p (p + 1) i with stk_nalloc := le_trans (Nat.le_succ _) h.stk_nalloc } p

/-- Allocating the node that is awaited leaves room on the stack for one frame more. -/
theorem AwaitsNode.allocNode (h : s.AwaitsNode) (upd : NodeEntry → NodeEntry) {stk : List Frame}
    (hstk : stk.length ≤ s.scratch.stk.length + 1) : (s.allocNode upd).AfterNode stk :=
  { h.takeIndex with
    tree := h.tree
    stk_nalloc := by
      have := h.stk_nalloc
      rw [allocNode_nalloc, toNat_succ_of_lt h.nalloc_lt]
      omega }

theorem AwaitsNode.execWInode (h : s.AwaitsNode) : AllNext Agrees (execWInode s) := by
  unfold Machine.execWInode
  rw [h.tree]
  dsimp only
  rw [if_pos h.nalloc_lt]
  exact (h.allocNode _ (by simp)).awaitNode

theorem AwaitsNode.execWLeaf (h : s.AwaitsNode) (sym : Nat) : AllNext Agrees (execWLeaf sym s) := by
  unfold Machine.execWLeaf
  rw [h.tree]
  dsimp only
  rw [if_pos h.nalloc_lt]
  exact ((h.allocNode _ (Nat.le_succ _)).withSym (symField sym)).returnSubtree s.nalloc

theorem Resting.runToken (h : s.Resting) (i : Instr) : AllNext Resting (runToken i s) := by
  cases i with
  | wMagic => exact h.execWMagic
  | wInode | wLeaf =>
    simp only [Machine.runToken, execWInode, execWLeaf]
    cases ha : s.activity with
    | tree => exact absurd ha h.not_tree
    | idle | magic => exact allNext_refused _
  | _ => exact allNext_refused _

theorem AwaitsNode.runToken (h : s.AwaitsNode) (i : Instr) : AllNext Agrees (runToken i s) := by
  cases i with
  | wInode => exact h.execWInode
  | wLeaf sym => exact h.execWLeaf sym
  | wMagic =>
    simp only [Machine.runToken, execWMagic, h.tree]
    exact allNext_refused _
  | _ => exact allNext_refused _

/-! ### RDMAGIC and RDHDR -/

theorem Resting.takeToken (h : s.Resting) : AllNext Resting (takeToken s) :=
  allNext_takeToken h.fetchWire fun i _ ht => ht.runToken i

theorem AwaitsNode.takeToken (h : s.AwaitsNode) : AllNext Agrees (takeToken s) :=
  allNext_takeToken (h.fetchWire.mono fun _ => .inl) fun i _ ht => ht.runToken i

theorem AwaitsNode.tokenLoop (h : s.AwaitsNode) (passes : Nat) : AllNext Resting (tokenLoop passes s) := by
  induction passes generalizing s with
  | zero => exact allNext_fault _
  | succ passes ih =>
    unfold Machine.tokenLoop
    refine h.takeToken.andThen fun t ht => ?_
    rcases ht with ht | ht
    · cases ha : t.activity with
      | tree => exact absurd ha ht.not_tree
      | idle | magic => exact allNext_next.2 ht
    · rw [ht.tree]
      exact ih ht

theorem Resting.startMagic (h : s.Resting) : (startMagic s).Resting := { h with not_tree := nofun }

theorem Resting.startTree (h : s.Resting) : (startTree s).AwaitsNode :=
  { h.invalidateTree with
    nalloc_le := by simp, stk_le := by simp [Machine.startTree], tree := rfl, nalloc_lt := by simp
    stk_nalloc := by simp [Machine.startTree] }

theorem Resting.execRdmagic (h : s.Resting) : AllNext Resting (execRdmagic s) :=
  allNext_unlessFaulted h h.startMagic.takeToken

theorem Resting.execRdhdr (h : s.Resting) : AllNext Resting (execRdhdr s) :=
  allNext_unlessFaulted h (h.startTree.tokenLoop Config.nodeCap.succ)

end Sys2Proof.Machine.State
end

section
/-! SUPPORT. COMPRESS and DECOMPRESS, the dispatch, the host's actions, and the step: the registers stay in agreement from every state, in the
middle of an operation too. -/

namespace Sys2Proof.Machine.State

variable {s : State}

theorem Resting.runStep (h : s.Resting) (m : MacroStep) : AllNext Resting (runStep m s) := by
  cases m with
  | count => exact h.execCount
  | build => exact h.execBuild
  | gencode => exact h.execGencode
  | wrmagic => exact h.execWrmagic
  | wrhdr => exact h.execWrhdr
  | encode => exact h.execEncode
  | rdmagic => exact h.execRdmagic
  | rdhdr => exact h.execRdhdr
  | decode => exact h.execDecode

theorem Resting.runSteps (h : s.Resting) (ms : List MacroStep) : AllNext Resting (runSteps ms s) := by
  induction ms generalizing s with
  | nil => exact allNext_next.2 (h.withSeq [])
  | cons m ms ih =>
    unfold Machine.runSteps
    refine ((h.withSeq ms).runStep m).andThen fun t ht => ?_
    split
    · exact allNext_next.2 ht
    · exact ih ht

theorem Resting.exec (h : s.Resting) (i : Instr) : AllNext Resting (exec i s) := by
  cases i with
  | clear => exact allNext_next.2 h.clear
  | count => exact h.execCount
  | build => exact h.execBuild
  | gencode => exact h.execGencode
  | wrmagic => exact h.execWrmagic
  | wrhdr => exact h.execWrhdr
  | encode => exact h.execEncode
  | rdmagic => exact h.execRdmagic
  | rdhdr => exact h.execRdhdr
  | decode => exact h.execDecode
  | compress => exact allNext_unlessFaulted h (h.runSteps compressSteps)
  | decompress => exact allNext_unlessFaulted h (h.runSteps decompressSteps)
  | wMagic => exact h.runToken .wMagic
  | wInode => exact h.runToken .wInode
  | wLeaf sym => exact h.runToken (.wLeaf sym)

theorem Resting.runCommand (h : s.Resting) (op : BitVec 4) : AllNext Resting (runCommand op s) := by
  unfold Machine.runCommand
  split
  · exact h.exec _
  · exact allNext_unlessFaulted h (allNext_next.2 (h.raise .illegalCmd))

/-! ### The host's side -/

theorem Resting.resetBlock (h : s.Resting) : (resetBlock s).Resting :=
  { h with
    err_faulted := rfl, built_valid := nofun, nalloc_le := Nat.zero_le _, pq_le := Nat.zero_le _
    stk_le := freeScratchOf_stk_length s.cntW s.draws, not_tree := nofun }

theorem Resting.changeInput (h : s.Resting) (bits : Bits) : AllNext Resting (changeInput bits s) := by
  unfold Machine.changeInput
  cases hs : s.source with
  | none => exact allNext_refused _
  | some src => exact allNext_next.2 (h.withSource (src := { src with rescan := some bits }) (h.pos_le src hs) s.trace)

theorem Resting.hostRead (h : s.Resting) (v : BitVec 8) : AllNext Resting (hostRead v s) :=
  allNext_next.2 { h with }

theorem Resting.runHost (h : s.Resting) : AllNext Resting (runHost s) := by
  unfold Machine.runHost
  split
  next => exact allNext_next.2 h
  next op rest _ => exact (h.withHost rest).runCommand op
  next bits rest _ => exact allNext_next.2 ((h.withHost rest).withSource (Nat.zero_le _) s.trace)
  next rest _ => exact allNext_next.2 ((h.withHost rest).withSink _ s.trace)
  next bits rest _ => exact (h.withHost rest).changeInput bits
  next pad rest _ => exact (h.withHost rest).sinkClose pad
  next rest _ => exact (h.withHost rest).hostRead _
  next rest _ => exact (h.withHost rest).hostRead _
  next rest _ =>
    have drawn : ({ s with host := rest, draws := s.draws + 1 } : State).Resting := { h with }
    exact drawn.hostRead _
  next rest _ => exact allNext_next.2 (h.withHost rest).resetBlock

/-! ### The step -/

/-- A step from a block in which RDHDR does not run completes what it starts. -/
theorem Resting.step (h : s.Resting) : AllNext Resting (step s) := by
  cases ha : s.activity with
  | tree => exact absurd ha h.not_tree
  | magic =>
    rw [step_of_activity_ne_idle (by simp [ha])]
    exact h.takeToken
  | idle =>
    unfold Machine.step
    rw [ha]
    dsimp only
    split
    · exact h.runHost
    · exact h.runSteps _

theorem AwaitsNode.step (h : s.AwaitsNode) : AllNext Agrees (step s) := by
  rw [step_of_activity_ne_idle (by simp [h.tree])]
  exact h.takeToken

end Sys2Proof.Machine.State

namespace Sys2Proof.Machine

/-- Settles O57: from a state in which RDHDR does not run every step ends in one, and a step in the middle of RDHDR ends there or
after it; `registersOk` is the two together. -/
theorem stepKeepsRegistersOk : Obligations.StepKeepsRegistersOk := by
  intro s t hs hst
  rw [registersOk_iff] at hs ⊢
  rcases hs with hs | hs
  · exact .inl (hs.step t hst)
  · exact hs.step t hst

/-- Settles O12: `raise` keeps the recorded fault, if there is one, in place of its own. -/
theorem raiseRecordsFirstFault : Obligations.RaiseRecordsFirstFault := by
  intro e s
  constructor
  · intro hnone
    rw [raise_eq, hnone, Option.getD_none]
  · intro e₀ hsome
    rw [raise_eq, hsome, Option.getD_some, ← hsome]

end Sys2Proof.Machine
end

section
/-! SUPPORT. What one host action does in one step (70_reset_and_hazards.md R263, R277), and the words the host reads (10_state.md
R30, R32). -/

namespace Sys2Proof.Machine

theorem step_of_atRest {s : State} (ha : s.activity = .idle) (hq : s.seq = []) : step s = runHost s := by
  simp only [step, ha, hq]

theorem runHost_nil {s : State} (h : s.host = []) : runHost s = .next s := by
  simp only [runHost, h]

/-- What each of the host's actions does, once it is off the list. -/
def runAction : HostAction → State → Outcome
  | .writeCmd op => runCommand op
  | .bindSource bits => bindSource bits
  | .bindSink => bindSink
  | .changeInput bits => changeInput bits
  | .closeSink pad => sinkClose pad
  | .readStatus => readStatus
  | .readErr => readErr
  | .readCmd => readCmd
  | .reset => hostReset

theorem runHost_cons {s : State} {a : HostAction} {rest : List HostAction} (h : s.host = a :: rest) :
    runHost s = runAction a { s with host := rest } := by
  simp only [runHost, h]
  cases a <;> rfl

theorem runCommand_of_decode {op : BitVec 4} {i : Instr} (h : decode (.cmd op) = .ok i) (s : State) :
    runCommand op s = exec i s := by
  simp only [runCommand, h]

/-- Settles O4: the host's write of `CMD` is the first of its actions, and its code decodes to `i`. -/
theorem stepRunsIssuedCommand : Obligations.StepRunsIssuedCommand := by
  intro s op rest i ha hq hh hd
  rw [step_of_atRest ha hq, runHost_cons hh]
  exact runCommand_of_decode hd _

theorem sinkClose_open {s : State} {snk : Sink} (hs : s.sink = some snk) (hc : snk.closed = false) (pad : BitVec 7) :
    sinkClose pad s = .next { s with
      sink := some { out := snk.out ++ bitsOf ((8 - snk.out.length % 8) % 8) pad.toNat, closed := true } } :=
  sinkClose_eq_next.2 ⟨snk, hs, hc, rfl⟩

/-- Settles O7: one case for each action; the length of the pad bits is that of R65. -/
theorem hostActionEffects : Obligations.HostActionEffects := by
  intro s ha hq
  rw [step_of_atRest ha hq]
  refine ⟨runHost_nil, fun a rest hh => ?_⟩
  rw [runHost_cons hh]
  cases a with
  | bindSource bits => rfl
  | bindSink => rfl
  | changeInput bits => intro src hs; simp only [runAction, changeInput, hs]
  | writeCmd op => trivial
  | closeSink pad =>
    intro snk hs hc
    exact ⟨_, bitsOf_length _ _, by rw [bitsOf_length], sinkClose_open (by exact hs) hc pad⟩
  | readStatus => rfl
  | readErr => rfl
  | readCmd => exact ⟨_, _, rfl⟩
  | reset => exact ⟨_, rfl, rfl, rfl, rfl, rfl, rfl, rfl, rfl, rfl, rfl, rfl⟩

/-- Settles O8: each of the fields of `STATUS` and each of the kinds of fault is one of finitely many. -/
theorem statusAndErrWords : Obligations.StatusAndErrWords := by
  constructor
  · rintro ⟨freqValid, treeValid, treeBuilt, codeValid, dstate, faulted⟩
    revert freqValid treeValid treeBuilt codeValid faulted
    cases dstate <;> decide
  · intro s
    unfold State.errWord
    cases s.err with
    | none => rfl
    | some e => cases e <;> rfl

/-- Settles O9: `State.reset` holds these values. -/
theorem resetValues : Obligations.ResetValues := by
  refine ⟨?_, rfl, rfl, rfl, rfl, rfl⟩
  decide

/-- Settles O56: no flag is set, so no array is looked at. -/
theorem resetStateIsOk : Obligations.ResetStateIsOk := rfl

/-! ### removeMin -/

theorem before_iff (s : State) (i j : Idx) : s.before i j = true ↔ keyBefore s i j := by
  simp [State.before, keyBefore]

theorem keyBefore_trans {s : State} {i j k : Idx} (hij : keyBefore s i j) (hjk : keyBefore s j k) : keyBefore s i k := by
  unfold keyBefore at *
  omega

/-- R132's order is total: two indices have different keys. -/
theorem keyBefore_total (s : State) (i j : Idx) : i = j ∨ keyBefore s i j ∨ keyBefore s j i := by
  unfold keyBefore
  rcases lt_trichotomy i.toNat j.toNat with h | h | h
  · omega
  · exact .inl (BitVec.eq_of_toNat_eq h)
  · omega

theorem leastOf_isSome (s : State) {is : List Idx} (h : is ≠ []) : ∃ i, s.leastOf is = some i := by
  cases is with
  | nil => exact absurd rfl h
  | cons i is =>
    unfold State.leastOf
    split
    · exact ⟨i, rfl⟩
    · exact ⟨_, (apply_ite some _ _ _).symm⟩

/-- What `leastOf` finds has a key below every other's (R132). -/
theorem leastOf_least (s : State) {is : List Idx} {i : Idx} (h : s.leastOf is = some i) :
    ∀ j ∈ is, j = i ∨ keyBefore s i j := by
  induction is generalizing i with
  | nil => cases h
  | cons k is ih =>
    cases hl : s.leastOf is with
    | none =>
      have nil : is = [] := by
        by_contra hne
        obtain ⟨m, hm⟩ := leastOf_isSome s hne
        rw [hl] at hm
        cases hm
      simp only [State.leastOf, hl, Option.some.injEq] at h
      subst h nil
      simp
    | some m =>
      simp only [State.leastOf, hl] at h
      have below := ih hl
      split at h
      next hb =>
        cases h
        rw [before_iff] at hb
        rintro j (_ | ⟨_, hj⟩)
        · exact .inr hb
        · exact below j hj
      next hb =>
        cases h
        rw [before_iff] at hb
        have first : m = k ∨ keyBefore s k m := by
          rcases keyBefore_total s m k with h | h | h
          · exact .inl h
          · exact absurd h hb
          · exact .inr h
        rintro j (_ | ⟨_, hj⟩)
        · exact .inl rfl
        · rcases first with rfl | hkm
          · exact below j hj
          · rcases below j hj with rfl | hmj
            · exact .inr hkm
            · exact .inr (keyBefore_trans hkm hmj)

theorem removeMin_of_leastOf {s : State} {i : Idx} (h : s.leastOf s.pq = some i) :
    s.removeMin = some (i, { s with pq := s.pq.erase i }) := by
  simp only [State.removeMin, h]

/-- Settles O19: `leastOf` finds the index, by induction on `PQ`. -/
theorem removeMinTakesLeast : Obligations.RemoveMinTakesLeast := by
  intro s hs
  obtain ⟨i, hi⟩ := leastOf_isSome s hs
  exact ⟨i, removeMin_of_leastOf hi, leastOf_mem s hi, leastOf_least s hi⟩

end Sys2Proof.Machine
end

section
/-! SUPPORT. What an instruction may do to the state (`Effects`), as a relation between the state before and the state after
(`Effects.Allows`): which cells it may write, which flags it may set or clear, which faults it may raise, and that the ports change
only by their rules (10_state.md R30, R32, 20_memory.md R60 to R65, 60_exceptions.md R230). Each named update and port transaction
keeps the relation. -/

namespace Sys2Proof.Machine

/-- The arrays and registers but scratch, and the payload decoder's state. -/
inductive Cell where
  | root
  | nalloc
  | cur
  | dstate
  | freq
  | node
  | pq
  | code
  deriving DecidableEq

/-- A cell holds what it held. -/
def Cell.Same : Cell → State → State → Prop
  | .root, s, t => t.root = s.root
  | .nalloc, s, t => t.nalloc = s.nalloc
  | .cur, s, t => t.cur = s.cur
  | .dstate, s, t => t.status.dstate = s.status.dstate
  | .freq, s, t => t.freq = s.freq
  | .node, s, t => t.node = s.node
  | .pq, s, t => t.pq = s.pq
  | .code, s, t => t.code = s.code

/-- The validity flags of `STATUS` (R30). -/
inductive Flag where
  | freqValid
  | treeValid
  | treeBuilt
  | codeValid
  deriving DecidableEq

/-- The value of a flag. -/
def Flag.of : Flag → Status → Bool
  | .freqValid, st => st.freqValid
  | .treeValid, st => st.treeValid
  | .treeBuilt, st => st.treeBuilt
  | .codeValid, st => st.codeValid

/-- What an instruction may do: the cells it writes, the flags it sets and clears, the faults it raises; whether it rewinds the source,
waits for wire tokens, or runs the macro sequencer. -/
structure Effects where
  writes    : List Cell := []
  sets      : List Flag := []
  clears    : List Flag := []
  faults    : List ErrKind := []
  rewinds   : Bool := false
  awaits    : Bool := false
  sequences : Bool := false

/-- What one instruction may do, another may do too. -/
structure Effects.Within (E₀ E : Effects) : Prop where
  writes    : ∀ c ∈ E₀.writes, c ∈ E.writes := by decide
  sets      : ∀ f ∈ E₀.sets, f ∈ E.sets := by decide
  clears    : ∀ f ∈ E₀.clears, f ∈ E.clears := by decide
  faults    : ∀ e ∈ E₀.faults, e ∈ E.faults := by decide
  rewinds   : E₀.rewinds = true → E.rewinds = true := by decide
  awaits    : E₀.awaits = true → E.awaits = true := by decide
  sequences : E₀.sequences = true → E.sequences = true := by decide

theorem Effects.Within.refl (E : Effects) : E.Within E :=
  ⟨fun _ => id, fun _ => id, fun _ => id, fun _ => id, id, id, id⟩

theorem Effects.Within.trans {E₀ E₁ E₂ : Effects} (h : E₀.Within E₁) (h' : E₁.Within E₂) : E₀.Within E₂ where
  writes := fun c hc => h'.writes c (h.writes c hc)
  sets := fun f hf => h'.sets f (h.sets f hf)
  clears := fun f hf => h'.clears f (h.clears f hf)
  faults := fun e he => h'.faults e (h.faults e he)
  rewinds := fun hr => h'.rewinds (h.rewinds hr)
  awaits := fun ha => h'.awaits (h.awaits ha)
  sequences := fun hs => h'.sequences (h.sequences hs)

/-- A source keeps its input and does not go back (R60, R61), unless it is rewound (R62). -/
def SourceMoves (rewinds : Bool) : Option Source → Option Source → Prop
  | none, none => True
  | some a, some b =>
    (b.bits = a.bits ∧ b.rescan = a.rescan ∧ a.pos ≤ b.pos) ∨
      (rewinds = true ∧ b.bits = a.rescan.getD a.bits ∧ b.rescan = none)
  | _, _ => False

/-- A sink is not closed and keeps what it holds (R63, R64). -/
def SinkGrows : Option Sink → Option Sink → Prop
  | none, none => True
  | some a, some b => b.closed = a.closed ∧ a.out <+: b.out
  | _, _ => False

/-- The state `t` can come of the state `s` by what the instruction may do. -/
structure Effects.Allows (E : Effects) (s t : State) : Prop where
  cntW         : t.cntW = s.cntW
  host         : t.host = s.host
  readout      : t.readout = s.readout
  trace        : s.trace <+: t.trace
  source       : SourceMoves E.rewinds s.source t.source
  sink         : SinkGrows s.sink t.sink
  same         : ∀ c ∉ E.writes, c.Same s t
  sets         : ∀ f : Flag, f.of t.status = true → f.of s.status = true ∨ f ∈ E.sets
  clears       : ∀ f : Flag, f.of s.status = true → f.of t.status = true ∨ f ∈ E.clears
  raises       : ∀ e, t.err = some e → s.err = some e ∨ e ∈ E.faults
  keepsErr     : ∀ e, s.err = some e → t.err = some e
  faults       : t.status.faulted = true → s.status.faulted = true ∨ E.faults ≠ []
  keepsFaulted : s.status.faulted = true → t.status.faulted = true
  activity     : t.activity = s.activity ∨ t.activity = .idle ∨ E.awaits = true
  seq          : t.seq = s.seq ∨ t.seq = [] ∨ E.sequences = true
  /-- A fault ends the operation and the macro (R230). -/
  halts        : t.status.faulted = true → s.status.faulted = true ∨ (t.activity = .idle ∧ t.seq = [])

namespace Effects.Allows

variable {E : Effects} {s t : State}

theorem refl (E : Effects) (s : State) : E.Allows s s where
  cntW := rfl
  host := rfl
  readout := rfl
  trace := List.prefix_rfl
  source := by cases h : s.source <;> simp [SourceMoves]
  sink := by cases h : s.sink <;> simp [SinkGrows]
  same := fun c _ => by cases c <;> rfl
  sets := fun _ => .inl
  clears := fun _ => .inl
  raises := fun _ => .inl
  keepsErr := fun _ => id
  faults := .inl
  keepsFaulted := id
  activity := .inl rfl
  seq := .inl rfl
  halts := .inl

/-! ### Cells -/

theorem withRoot (h : E.Allows s t) (hw : .root ∈ E.writes) (root : Idx) :
    E.Allows s { t with root := root } :=
  { h with
    same := fun c hc => by
      cases c with
      | root => exact absurd hw hc
      | _ => exact h.same _ hc }

theorem withNalloc (h : E.Allows s t) (hw : .nalloc ∈ E.writes) (nalloc : Idx) :
    E.Allows s { t with nalloc := nalloc } :=
  { h with
    same := fun c hc => by
      cases c with
      | nalloc => exact absurd hw hc
      | _ => exact h.same _ hc }

theorem withCur (h : E.Allows s t) (hw : .cur ∈ E.writes) (cur : Idx) : E.Allows s { t with cur := cur } :=
  { h with
    same := fun c hc => by
      cases c with
      | cur => exact absurd hw hc
      | _ => exact h.same _ hc }

theorem withFreq (h : E.Allows s t) (hw : .freq ∈ E.writes) (freq : Vector Nat 257) :
    E.Allows s { t with freq := freq } :=
  { h with
    same := fun c hc => by
      cases c with
      | freq => exact absurd hw hc
      | _ => exact h.same _ hc }

theorem withNode (h : E.Allows s t) (hw : .node ∈ E.writes) (node : Vector NodeEntry 513) :
    E.Allows s { t with node := node } :=
  { h with
    same := fun c hc => by
      cases c with
      | node => exact absurd hw hc
      | _ => exact h.same _ hc }

theorem withPq (h : E.Allows s t) (hw : .pq ∈ E.writes) (pq : List Idx) : E.Allows s { t with pq := pq } :=
  { h with
    same := fun c hc => by
      cases c with
      | pq => exact absurd hw hc
      | _ => exact h.same _ hc }

theorem withCode (h : E.Allows s t) (hw : .code ∈ E.writes) (code : Vector CodeEntry 257) :
    E.Allows s { t with code := code } :=
  { h with
    same := fun c hc => by
      cases c with
      | code => exact absurd hw hc
      | _ => exact h.same _ hc }

theorem setDState (h : E.Allows s t) (hw : .dstate ∈ E.writes) (d : DState) : E.Allows s (t.setDState d) :=
  { h with
    same := fun c hc => by
      cases c with
      | dstate => exact absurd hw hc
      | _ => exact h.same _ hc
    sets := fun f hf => by cases f <;> exact h.sets _ hf
    clears := fun f hf => by cases f <;> exact h.clears _ hf }

theorem withScratch (h : E.Allows s t) (x : Scratch) : E.Allows s { t with scratch := x } :=
  { h with same := fun c hc => by cases c <;> exact h.same _ hc }

theorem freeScratch (h : E.Allows s t) : E.Allows s t.freeScratch :=
  { h with same := fun c hc => by cases c <;> exact h.same _ hc }

theorem cursorToRoot (h : E.Allows s t) (hc : .cur ∈ E.writes) (hd : .dstate ∈ E.writes) :
    E.Allows s t.cursorToRoot :=
  (h.withCur hc t.root).setDState hd .atRoot

/-! ### Flags -/

/-- A write of `STATUS` that leaves `DSTATE` and `FAULTED`. -/
theorem withStatus (h : E.Allows s t) {st : Status} (hd : st.dstate = t.status.dstate)
    (hf : st.faulted = t.status.faulted) (hset : ∀ f : Flag, f.of st = true → f.of t.status = true ∨ f ∈ E.sets)
    (hclear : ∀ f : Flag, f.of t.status = true → f.of st = true ∨ f ∈ E.clears) :
    E.Allows s { t with status := st } :=
  { h with
    same := fun c hc => by
      cases c with
      | dstate => exact hd.trans (h.same .dstate hc)
      | _ => exact h.same _ hc
    sets := fun f ht => (hset f ht).elim (h.sets f) .inr
    clears := fun f hs => (h.clears f hs).elim (hclear f) .inr
    faults := fun ht => h.faults (hf ▸ ht)
    keepsFaulted := fun hs => hf.trans (h.keepsFaulted hs)
    halts := fun ht => h.halts (hf ▸ ht) }

theorem invalidateTree (h : E.Allows s t) (hv : .treeValid ∈ E.clears) (hb : .treeBuilt ∈ E.clears)
    (hc : .codeValid ∈ E.clears) : E.Allows s t.invalidateTree :=
  h.withStatus rfl rfl (fun f hf => by cases f <;> simp_all [Flag.of]) (fun f hf => by cases f <;> simp_all [Flag.of])

theorem invalidateFreq (h : E.Allows s t) (hf : .freqValid ∈ E.clears) (hv : .treeValid ∈ E.clears)
    (hb : .treeBuilt ∈ E.clears) (hc : .codeValid ∈ E.clears) : E.Allows s t.invalidateFreq :=
  h.withStatus rfl rfl (fun f hf => by cases f <;> simp_all [Flag.of]) (fun f hf => by cases f <;> simp_all [Flag.of])

theorem invalidateCode (h : E.Allows s t) (hc : .codeValid ∈ E.clears) : E.Allows s t.invalidateCode :=
  h.withStatus rfl rfl (fun f hf => by cases f <;> simp_all [Flag.of]) (fun f hf => by cases f <;> simp_all [Flag.of])

theorem validateFreq (h : E.Allows s t) (hf : .freqValid ∈ E.sets) : E.Allows s t.validateFreq :=
  h.withStatus rfl rfl (fun f hf => by cases f <;> simp_all [Flag.of]) (fun f hf => by cases f <;> simp_all [Flag.of])

theorem validateBuiltTree (h : E.Allows s t) (hv : .treeValid ∈ E.sets) (hb : .treeBuilt ∈ E.sets) :
    E.Allows s t.validateBuiltTree :=
  h.withStatus rfl rfl (fun f hf => by cases f <;> simp_all [Flag.of]) (fun f hf => by cases f <;> simp_all [Flag.of])

theorem validateReadTree (h : E.Allows s t) (hv : .treeValid ∈ E.sets) : E.Allows s t.validateReadTree :=
  h.withStatus rfl rfl (fun f hf => by cases f <;> simp_all [Flag.of]) (fun f hf => by cases f <;> simp_all [Flag.of])

theorem validateCode (h : E.Allows s t) (hc : .codeValid ∈ E.sets) : E.Allows s t.validateCode :=
  h.withStatus rfl rfl (fun f hf => by cases f <;> simp_all [Flag.of]) (fun f hf => by cases f <;> simp_all [Flag.of])

/-! ### Faults and sequencing -/

theorem raise (h : E.Allows s t) {e : ErrKind} (he : e ∈ E.faults) : E.Allows s (raise e t) :=
  { h with
    same := fun c hc => by cases c <;> exact h.same _ hc
    sets := fun f hf => by cases f <;> exact h.sets _ hf
    clears := fun f hf => by cases f <;> exact h.clears _ hf
    raises := fun e' he' => by
      cases hr : t.err with
      | none =>
        rw [raise_err, hr, Option.getD_none, Option.some.injEq] at he'
        exact .inr (he' ▸ he)
      | some e₀ =>
        rw [raise_err, hr, Option.getD_some] at he'
        exact h.raises e' (hr.trans he')
    keepsErr := fun e' he' => by rw [raise_err, h.keepsErr e' he', Option.getD_some]
    faults := fun _ => .inr (List.ne_nil_of_mem he)
    keepsFaulted := fun _ => rfl
    activity := .inr (.inl rfl)
    seq := .inr (.inl rfl)
    halts := fun _ => .inr ⟨rfl, rfl⟩ }

theorem toIdle (h : E.Allows s t) : E.Allows s { t with activity := .idle } :=
  { h with
    same := fun c hc => by cases c <;> exact h.same _ hc
    activity := .inr (.inl rfl)
    halts := fun ht => (h.halts ht).imp_right fun hh => ⟨rfl, hh.2⟩ }

/-- An operation that waits for wire tokens begins while no fault is recorded (R206). -/
theorem await (h : E.Allows s t) (hE : E.awaits = true) (ht : t.status.faulted = false) (a : Activity) :
    E.Allows s { t with activity := a } :=
  { h with
    same := fun c hc => by cases c <;> exact h.same _ hc
    activity := .inr (.inr hE)
    halts := fun hf => by rw [ht] at hf; cases hf }

/-- The macro sequencer goes on while no fault is recorded (R109). -/
theorem withSeq (h : E.Allows s t) (hE : E.sequences = true) (ht : t.status.faulted = false) (seq : List MacroStep) :
    E.Allows s { t with seq := seq } :=
  { h with
    same := fun c hc => by cases c <;> exact h.same _ hc
    seq := .inr (.inr hE)
    halts := fun hf => by rw [ht] at hf; cases hf }

/-! ### Ports -/

theorem withSource (h : E.Allows s t) {a b : Source} (ha : t.source = some a) (hbits : b.bits = a.bits)
    (hrescan : b.rescan = a.rescan) (hpos : a.pos ≤ b.pos) (e : PortEvent) :
    E.Allows s { t with source := some b, trace := t.trace ++ [e] } :=
  { h with
    trace := h.trace.trans (List.prefix_append _ _)
    same := fun c hc => by cases c <;> exact h.same _ hc
    source := by
      have hm := h.source
      rw [ha] at hm
      cases hs : s.source with
      | none => rw [hs] at hm; exact hm
      | some src =>
        rw [hs] at hm
        exact hm.imp (fun ⟨hb, hr, hp⟩ => ⟨hbits.trans hb, hrescan.trans hr, hp.trans hpos⟩)
          fun ⟨hw, hb, hr⟩ => ⟨hw, hbits.trans hb, hrescan.trans hr⟩ }

theorem srcRead_data {n v : Nat} {u : State} (h : E.Allows s t) (hr : srcRead n t = .data v u) : E.Allows s u := by
  obtain ⟨src, hs, -, -, -, -, -, rfl⟩ := srcRead_eq_data hr
  exact h.withSource (b := { src with pos := src.pos + n }) hs rfl rfl (Nat.le_add_right _ _) _

theorem srcRead_noData {n : Nat} {u : State} (h : E.Allows s t) (hr : srcRead n t = .noData u) : E.Allows s u := by
  obtain ⟨src, hs, -, -, -, rfl⟩ := srcRead_eq_noData hr
  exact h.withSource (b := { src with eos := true }) hs rfl rfl le_rfl _

theorem srcReset (h : E.Allows s t) (hE : E.rewinds = true) : AllNext (E.Allows s) (srcReset t) := by
  intro u hu
  obtain ⟨a, ha, rfl⟩ := srcReset_eq_next.1 hu
  exact
    { h with
      trace := h.trace.trans (List.prefix_append _ _)
      same := fun c hc => by cases c <;> exact h.same _ hc
      source := by
        have hm := h.source
        rw [ha] at hm
        cases hs : s.source with
        | none => rw [hs] at hm; exact hm
        | some src =>
          rw [hs] at hm
          rcases hm with ⟨hb, hr, -⟩ | ⟨-, hb, hr⟩
          · exact .inr ⟨hE, by rw [rewound_bits, hb, hr], rfl⟩
          · exact .inr ⟨hE, by rw [rewound_bits, hr, hb, Option.getD_none], rfl⟩ }

theorem sinkWrite (h : E.Allows s t) (n v : Nat) : AllNext (E.Allows s) (sinkWrite n v t) := by
  intro u hu
  obtain ⟨snk, hs, -, -, -, rfl⟩ := sinkWrite_eq_next.1 hu
  exact
    { h with
      trace := h.trace.trans (List.prefix_append _ _)
      same := fun c hc => by cases c <;> exact h.same _ hc
      sink := by
        have hg := h.sink
        rw [hs] at hg
        cases hs' : s.sink with
        | none => rw [hs'] at hg; exact hg
        | some snk' =>
          rw [hs'] at hg
          exact ⟨hg.1, hg.2.trans (List.prefix_append _ _)⟩ }

end Effects.Allows
end Sys2Proof.Machine
end

section
/-! SUPPORT. The effects of each instruction (10_state.md R30, R35 to R39, 46_control.md R205, 60_exceptions.md R221), and that its
meaning does nothing else: each operation goes from one update of the state or port transaction to the next. -/

namespace Sys2Proof.Machine

/-! ### The effects of each instruction -/

/-- What COUNT may do (R120). -/
@[simp] def countEffects : Effects where
  writes := [.freq]
  sets := [.freqValid]
  clears := [.freqValid, .treeValid, .treeBuilt, .codeValid]
  faults := [.countOverflow]

/-- What BUILD may do under its prerequisite (R130). -/
@[simp] def buildEffects : Effects where
  writes := [.root, .nalloc, .node, .pq]
  sets := [.treeValid, .treeBuilt]
  clears := [.treeValid, .treeBuilt, .codeValid]

/-- What GENCODE may do under its prerequisite (R150). -/
@[simp] def gencodeEffects : Effects where
  writes := [.code]
  sets := [.codeValid]
  clears := [.codeValid]

/-- What writing the magic or a header may do: nothing but writes to the sink (R160, R161). -/
@[simp] def writeEffects : Effects where

/-- What ENCODE may do under its prerequisite (R180). -/
@[simp] def encodeEffects : Effects where
  faults := [.noCode]
  rewinds := true

/-- What DECODE may do under its prerequisite (R190). -/
@[simp] def decodeEffects : Effects where
  writes := [.cur, .dstate]
  faults := [.degenerateTree, .malformedPayload]

/-- What RDMAGIC may do (R163). -/
@[simp] def rdmagicEffects : Effects where
  faults := [.illegalHeader]
  awaits := true

/-- What W.INODE may do (R164). -/
@[simp] def inodeEffects : Effects where
  writes := [.nalloc, .node]
  faults := [.treeOverflow]

/-- What W.LEAF may do (R164). -/
@[simp] def leafEffects : Effects where
  writes := [.root, .nalloc, .node]
  sets := [.treeValid]
  faults := [.treeOverflow]

/-- What RDHDR may do (R164): what its tokens do, its start, and the end of the source. -/
@[simp] def rdhdrEffects : Effects where
  writes := [.root, .nalloc, .node]
  sets := [.treeValid]
  clears := [.treeValid, .treeBuilt, .codeValid]
  faults := [.malformedTree, .treeOverflow]
  awaits := true

/-- What COMPRESS may do (R201). -/
@[simp] def compressEffects : Effects where
  writes := [.root, .nalloc, .freq, .node, .pq, .code]
  sets := [.freqValid, .treeValid, .treeBuilt, .codeValid]
  clears := [.freqValid, .treeValid, .treeBuilt, .codeValid]
  faults := [.countOverflow, .noCode]
  rewinds := true
  sequences := true

/-- What DECOMPRESS may do (R202). -/
@[simp] def decompressEffects : Effects where
  writes := [.root, .nalloc, .cur, .dstate, .node]
  sets := [.treeValid]
  clears := [.treeValid, .treeBuilt, .codeValid]
  faults := [.illegalHeader, .malformedTree, .treeOverflow, .degenerateTree, .malformedPayload]
  awaits := true
  sequences := true

theorem inodeEffects_within : inodeEffects.Within leafEffects := {}

theorem leafEffects_within : leafEffects.Within rdhdrEffects := {}

/-- What an operation with a prerequisite may do: without it, `E_SEQUENCE` (R204). -/
@[simp] def Effects.orSequence (E : Effects) : Effects := { E with faults := .sequence :: E.faults }

/-- What an instruction may do; CLEAR is left to `returnFromFault`. -/
@[simp] def effectsOf : Instr → Effects
  | .clear | .wMagic => {}
  | .count => countEffects
  | .build => buildEffects.orSequence
  | .gencode => gencodeEffects.orSequence
  | .wrmagic => writeEffects
  | .wrhdr => writeEffects.orSequence
  | .encode => encodeEffects.orSequence
  | .rdmagic => rdmagicEffects
  | .rdhdr => rdhdrEffects
  | .decode => decodeEffects.orSequence
  | .compress => compressEffects
  | .decompress => decompressEffects
  | .wInode => inodeEffects
  | .wLeaf _ => leafEffects

theorem Effects.within_orSequence (E : Effects) : E.Within E.orSequence :=
  { Effects.Within.refl E with faults := fun _ => List.mem_cons_of_mem _ }

theorem Effects.sequence_mem_orSequence (E : Effects) : ErrKind.sequence ∈ E.orSequence.faults := List.mem_cons_self

/-- An ignored command does nothing; one that is not ignored runs while no fault is recorded (R206). -/
theorem allNext_unlessFaulted_of_ready {P : State → Prop} {s : State} {f : State → Outcome} (hs : P s)
    (hf : s.status.faulted = false → AllNext P (f s)) : AllNext P (unlessFaulted s f) := by
  intro t ht
  rcases unlessFaulted_eq_next ht with ⟨-, rfl⟩ | ⟨hr, hst⟩
  · exact hs
  · exact hf hr t hst

/-- RDMAGIC can only be given the magic (R163). -/
theorem fetchMagic_got_eq {s t : State} {i : Instr} (h : fetchMagic s = .got i t) : i = .wMagic := by
  unfold fetchMagic at h
  split at h
  · cases h
  · cases h
  next v u _ =>
    split at h
    next j hd =>
      cases h
      have long : bitsOf Config.magicW v ≠ [false] := fun hb => by simpa using congrArg List.length hb
      simp only [decode, decodeWire, if_neg long, bitsOf_length, if_true] at hd
      split at hd <;> cases hd
      rfl
    · cases h

theorem fetchWire_startMagic (s : State) : fetchWire (startMagic s) = fetchMagic (startMagic s) := rfl

namespace Effects.Allows

variable {E : Effects} {s t : State}

/-- A prerequisite that may fail allows `E_SEQUENCE` (R204). -/
theorem requireFlags {c : Bool} {f : State → Outcome} (h : E.Allows s t) (hc : c = false → .sequence ∈ E.faults)
    (hf : AllNext (E.Allows s) (f t)) : AllNext (E.Allows s) (requireFlags c t f) := by
  intro u hu
  rcases requireFlags_eq_next hu with ⟨-, hu⟩ | ⟨hcf, rfl⟩
  · exact hf u hu
  · exact h.raise (hc hcf)

theorem releaseScratch {o : Outcome} (ho : AllNext (E.Allows s) o) : AllNext (E.Allows s) (releaseScratch o) :=
  ho.releaseScratch fun _ hu => hu.freeScratch

/-! ### frequency_counter -/

theorem countLoop (h : E.Allows s t) (hE : countEffects.Within E) (passes : Nat) :
    AllNext (E.Allows s) (countLoop passes t) := by
  have writes := hE.writes .freq (by decide)
  induction passes generalizing t with
  | zero => exact allNext_fault _
  | succ passes ih =>
    unfold Machine.countLoop
    cases hr : Machine.srcRead 8 t with
    | refused r => exact allNext_refused r
    | noData u =>
      exact allNext_next.2 (((h.srcRead_noData hr).withFreq writes _).validateFreq (hE.sets _ (by decide)))
    | data v u =>
      have hu := h.srcRead_data hr
      dsimp only
      split
      · exact ih (hu.withFreq writes _)
      · exact allNext_next.2 (hu.raise (hE.faults _ (by decide)))

theorem execCount (h : E.Allows s t) (hE : countEffects.Within E) : AllNext (E.Allows s) (execCount t) := by
  have clears := hE.clears
  have start := h.invalidateFreq (clears _ (by decide)) (clears _ (by decide)) (clears _ (by decide))
    (clears _ (by decide))
  exact allNext_unlessFaulted h
    (releaseScratch ((start.withFreq (hE.writes .freq (by decide)) _).countLoop hE t.passes))

/-! ### huffman_tree_builder -/

theorem removeMin {i : Idx} {u : State} (h : E.Allows s t) (hE : buildEffects.Within E)
    (hr : t.removeMin = some (i, u)) : E.Allows s u := by
  obtain ⟨-, rfl⟩ := removeMin_eq_some hr
  exact h.withPq (hE.writes .pq (by decide)) _

/-- A node is allocated and inserted: a leaf or a merge. -/
theorem insertNode (h : E.Allows s t) (hE : buildEffects.Within E) (upd : NodeEntry → NodeEntry) :
    E.Allows s ((t.allocNode upd).insertPq t.nalloc) :=
  ((h.withNode (hE.writes .node (by decide)) _).withNalloc (hE.writes .nalloc (by decide)) _).withPq
    (hE.writes .pq (by decide)) _

theorem addLeaves (h : E.Allows s t) (hE : buildEffects.Within E) (k : Nat) (counts : List Nat) :
    E.Allows s (addLeaves k counts t) := by
  induction counts generalizing k t with
  | nil => exact h
  | cons n counts ih =>
    unfold Machine.addLeaves
    refine ih ?_ _
    split
    · exact h.insertNode hE _
    · exact h

theorem placeLeaves (h : E.Allows s t) (hE : buildEffects.Within E) : E.Allows s (placeLeaves t) := by
  have start := (h.withNalloc (hE.writes .nalloc (by decide)) 0).withPq (hE.writes .pq (by decide)) []
  refine addLeaves ?_ hE _ _
  unfold addFiller
  split
  · exact start.insertNode hE _
  · exact start

theorem mergeLoop (h : E.Allows s t) (hE : buildEffects.Within E) (passes : Nat) :
    AllNext (E.Allows s) (mergeLoop passes t) := by
  induction passes generalizing t with
  | zero => exact allNext_fault _
  | succ passes ih =>
    unfold Machine.mergeLoop
    split
    · exact allNext_next.2 h
    · split
      · exact allNext_fault _
      next ha =>
        split
        · exact allNext_fault _
        next hb => exact ih (((h.removeMin hE ha).removeMin hE hb).insertNode hE _)

theorem takeRoot (h : E.Allows s t) (hE : buildEffects.Within E) : AllNext (E.Allows s) (takeRoot t) := by
  unfold Machine.takeRoot
  split
  · exact allNext_fault _
  next hr =>
    exact allNext_next.2 (((h.removeMin hE hr).withRoot (hE.writes .root (by decide)) _).validateBuiltTree
      (hE.sets _ (by decide)) (hE.sets _ (by decide)))

theorem execBuild (h : E.Allows s t) (hE : buildEffects.Within E)
    (hc : t.status.freqValid = false → .sequence ∈ E.faults) : AllNext (E.Allows s) (execBuild t) := by
  have start := h.invalidateTree (hE.clears _ (by decide)) (hE.clears _ (by decide)) (hE.clears _ (by decide))
  have merged := (start.placeLeaves hE).mergeLoop hE Config.nsym.succ
  exact allNext_unlessFaulted h
    (h.requireFlags hc (releaseScratch (merged.andThen fun _ hu => hu.takeRoot hE)))

/-! ### canonical_code_generator -/

theorem codeWalk (h : E.Allows s t) (hE : gencodeEffects.Within E) (depth : Nat) (i : Idx) (path : Bits) :
    AllNext (E.Allows s) (codeWalk depth i path t) := by
  induction depth generalizing i path t with
  | zero => exact allNext_fault _
  | succ depth ih =>
    unfold Machine.codeWalk
    split
    · exact allNext_fault _
    · split
      · unfold recordCode
        split
        · exact allNext_next.2 (h.withCode (hE.writes .code (by decide)) _)
        · exact allNext_fault _
      · exact (ih h _ _).andThen fun _ hu => ih hu _ _

theorem execGencode (h : E.Allows s t) (hE : gencodeEffects.Within E)
    (hc : (t.status.treeValid && t.status.treeBuilt) = false → .sequence ∈ E.faults) :
    AllNext (E.Allows s) (execGencode t) := by
  have start := (h.invalidateCode (hE.clears _ (by decide))).withCode (hE.writes .code (by decide))
    t.invalidateCode.dropCodes.code
  have walked := (start.codeWalk hE Config.nodeCap t.root []).andThen
    fun _ hu => allNext_next.2 (hu.validateCode (hE.sets _ (by decide)))
  exact allNext_unlessFaulted h (h.requireFlags hc (releaseScratch walked))

/-! ### Writing a header -/

theorem execWrmagic (h : E.Allows s t) : AllNext (E.Allows s) (execWrmagic t) :=
  allNext_unlessFaulted h (h.sinkWrite _ _)

theorem putTree (h : E.Allows s t) (depth : Nat) (i : Idx) : AllNext (E.Allows s) (putTree depth i t) := by
  induction depth generalizing i t with
  | zero => exact allNext_fault _
  | succ depth ih =>
    unfold Machine.putTree
    split
    · exact allNext_fault _
    · split
      · exact (h.sinkWrite 1 0).andThen fun _ hu => (ih hu _).andThen fun _ hv => ih hv _
      · exact (h.sinkWrite 1 1).andThen fun _ hu => hu.sinkWrite _ _

theorem execWrhdr (h : E.Allows s t) (hc : t.status.treeValid = false → .sequence ∈ E.faults) :
    AllNext (E.Allows s) (execWrhdr t) :=
  allNext_unlessFaulted h (h.requireFlags hc (releaseScratch (h.putTree Config.nodeCap t.root)))

/-! ### huffman_payload_encoder -/

theorem emitPieces (h : E.Allows s t) (pieces r : Nat) (val : BitVec 256) :
    AllNext (E.Allows s) (emitPieces pieces r val t) := by
  induction pieces generalizing r t with
  | zero => exact allNext_fault _
  | succ pieces ih =>
    unfold Machine.emitPieces
    split
    · exact (h.sinkWrite _ _).andThen fun _ hu => ih hu _
    · exact h.sinkWrite _ _

theorem encodeLoop (h : E.Allows s t) (hE : encodeEffects.Within E) (passes : Nat) :
    AllNext (E.Allows s) (encodeLoop passes t) := by
  induction passes generalizing t with
  | zero => exact allNext_fault _
  | succ passes ih =>
    unfold Machine.encodeLoop
    cases hr : Machine.srcRead 8 t with
    | refused r => exact allNext_refused r
    | noData u =>
      dsimp only
      unfold emitSentinel
      split
      · exact (h.srcRead_noData hr).emitPieces _ _ _
      · exact allNext_fault _
    | data v u =>
      have hu := h.srcRead_data hr
      dsimp only
      split
      · exact AllNext.andThen (hu.emitPieces _ _ _) fun _ hw => ih hw
      · exact allNext_next.2 (hu.raise (hE.faults _ (by decide)))

theorem execEncode (h : E.Allows s t) (hE : encodeEffects.Within E)
    (hc : t.status.codeValid = false → .sequence ∈ E.faults) : AllNext (E.Allows s) (execEncode t) :=
  allNext_unlessFaulted h (h.requireFlags hc
    (releaseScratch ((h.srcReset (hE.rewinds rfl)).andThen fun u hu => hu.encodeLoop hE u.passes)))

/-! ### huffman_payload_decoder -/

theorem decodeLoop (h : E.Allows s t) (hE : decodeEffects.Within E) (passes : Nat) :
    AllNext (E.Allows s) (decodeLoop passes t) := by
  have cur := hE.writes .cur (by decide)
  have dstate := hE.writes .dstate (by decide)
  induction passes generalizing t with
  | zero => exact allNext_fault _
  | succ passes ih =>
    unfold Machine.decodeLoop
    cases hr : Machine.srcRead 1 t with
    | refused r => exact allNext_refused r
    | noData u => exact allNext_next.2 ((h.srcRead_noData hr).raise (hE.faults _ (by decide)))
    | data b u =>
      have hu := h.srcRead_data hr
      dsimp only
      split
      · exact allNext_fault _
      · split
        · exact allNext_fault _
        · split
          · exact ih ((hu.withCur cur _).setDState dstate .descending)
          · split
            · exact allNext_next.2 ((hu.withCur cur _).setDState dstate .terminated)
            · exact (hu.sinkWrite 8 _).andThen fun _ hw => ih (hw.cursorToRoot cur dstate)

theorem execDecode (h : E.Allows s t) (hE : decodeEffects.Within E)
    (hc : t.status.treeValid = false → .sequence ∈ E.faults) : AllNext (E.Allows s) (execDecode t) := by
  refine allNext_unlessFaulted h (h.requireFlags hc ?_)
  split
  · exact allNext_fault _
  · split
    · exact allNext_next.2 (h.raise (hE.faults _ (by decide)))
    · exact (h.cursorToRoot (hE.writes _ (by decide)) (hE.writes _ (by decide))).decodeLoop hE t.passes

/-! ### The wire tokens -/

theorem raiseInTree (h : E.Allows s t) {e : ErrKind} (he : e ∈ E.faults) : AllNext (E.Allows s) (raiseInTree e t) :=
  allNext_next.2 (h.raise he).freeScratch

theorem awaitNode (h : E.Allows s t) (hE : inodeEffects.Within E) (stk : List Frame) :
    AllNext (E.Allows s) (awaitNode stk t) := by
  unfold Machine.awaitNode
  split
  · exact allNext_next.2 (h.withScratch _)
  · exact h.raiseInTree (hE.faults .treeOverflow (by decide))

theorem endTree (h : E.Allows s t) (hE : leafEffects.Within E) (r : Idx) : AllNext (E.Allows s) (endTree r t) :=
  allNext_next.2 ((h.withRoot (hE.writes .root (by decide)) r).toIdle.validateReadTree
    (hE.sets _ (by decide))).freeScratch

theorem returnSubtree (h : E.Allows s t) (hE : leafEffects.Within E) (stk : List Frame) (i : Idx) :
    AllNext (E.Allows s) (returnSubtree stk i t) := by
  induction stk generalizing i t with
  | nil => exact h.endTree hE i
  | cons frame stk ih =>
    obtain ⟨p, leftDone⟩ := frame
    cases leftDone with
    | false => exact h.awaitNode (inodeEffects_within.trans hE) _
    | true => exact ih (h.withNode (hE.writes .node (by decide)) _) p

theorem allocNode (h : E.Allows s t) (hE : inodeEffects.Within E) (upd : NodeEntry → NodeEntry) :
    E.Allows s (t.allocNode upd) :=
  (h.withNode (hE.writes .node (by decide)) _).withNalloc (hE.writes .nalloc (by decide)) _

theorem execWMagic (h : E.Allows s t) : AllNext (E.Allows s) (execWMagic t) := by
  unfold Machine.execWMagic
  cases t.activity with
  | magic => exact allNext_next.2 h.toIdle
  | idle | tree => exact allNext_refused _

theorem execWInode (h : E.Allows s t) (hE : inodeEffects.Within E) : AllNext (E.Allows s) (execWInode t) := by
  unfold Machine.execWInode
  split
  · split
    · exact (h.allocNode hE _).awaitNode hE _
    · exact h.raiseInTree (hE.faults .treeOverflow (by decide))
  · exact allNext_refused _
  · exact allNext_refused _

theorem execWLeaf (h : E.Allows s t) (hE : leafEffects.Within E) (sym : Nat) :
    AllNext (E.Allows s) (execWLeaf sym t) := by
  unfold Machine.execWLeaf
  split
  · split
    · exact ((h.allocNode (inodeEffects_within.trans hE) _).withScratch _).returnSubtree hE _ _
    · exact h.raiseInTree (hE.faults .treeOverflow (by decide))
  · exact allNext_refused _
  · exact allNext_refused _

/-! ### Reading a header -/

theorem fetchMagic (h : E.Allows s t) (hE : rdmagicEffects.Within E) :
    (fetchMagic t).Leaves (E.Allows s) (E.Allows s) := by
  have fault := hE.faults .illegalHeader (by decide)
  unfold Machine.fetchMagic
  cases hr : Machine.srcRead Config.magicW t with
  | refused r => exact allNext_refused r
  | noData u => exact allNext_next.2 ((h.srcRead_noData hr).raise fault)
  | data v u =>
    have hu := h.srcRead_data hr
    dsimp only
    split
    · exact hu
    · exact allNext_next.2 (hu.raise fault)

theorem execRdmagic (h : E.Allows s t) (hE : rdmagicEffects.Within E) : AllNext (E.Allows s) (execRdmagic t) := by
  refine allNext_unlessFaulted_of_ready h fun hr => ?_
  have fetched : (Machine.fetchMagic (startMagic t)).Leaves (E.Allows s) (E.Allows s) :=
    (h.await (hE.awaits rfl) hr .magic).fetchMagic hE
  unfold takeToken
  rw [fetchWire_startMagic]
  cases hf : Machine.fetchMagic (startMagic t) with
  | ended o => rw [hf] at fetched; exact fetched
  | got i u =>
    rw [hf] at fetched
    cases fetchMagic_got_eq hf
    exact execWMagic fetched

theorem fetchTreeToken (h : E.Allows s t) (hE : rdhdrEffects.Within E) :
    (fetchTreeToken t).Leaves (E.Allows s) (E.Allows s) := by
  have fault := hE.faults .malformedTree (by decide)
  unfold Machine.fetchTreeToken
  cases hr : Machine.srcRead 1 t with
  | refused r => exact allNext_refused r
  | noData u => exact (h.srcRead_noData hr).raiseInTree fault
  | data flag u =>
    have hu := h.srcRead_data hr
    dsimp only
    split
    · split
      · exact hu
      · exact hu.raiseInTree fault
    · cases hr' : Machine.srcRead Config.symfW u with
      | refused r => exact allNext_refused r
      | noData w => exact ((hu.srcRead_noData hr').withNalloc (hE.writes .nalloc (by decide)) _).raiseInTree fault
      | data v w =>
        have hw := hu.srcRead_data hr'
        dsimp only
        split
        · exact hw
        · exact hw.raiseInTree fault

theorem runToken (h : E.Allows s t) (hE : leafEffects.Within E) (i : Instr) :
    AllNext (E.Allows s) (runToken i t) := by
  cases i with
  | wMagic => exact h.execWMagic
  | wInode => exact h.execWInode (inodeEffects_within.trans hE)
  | wLeaf sym => exact h.execWLeaf hE sym
  | _ => exact allNext_refused _

/-- Inside RDHDR a token is taken, and its own effects are RDHDR's. -/
theorem takeTreeToken (h : E.Allows s t) (hE : rdhdrEffects.Within E) (ha : t.activity = .tree) :
    AllNext (E.Allows s) (takeToken t) := by
  have token := leafEffects_within.trans hE
  have fetched : (fetchWire t).Leaves (E.Allows s) (E.Allows s) := by
    unfold fetchWire
    rw [ha]
    exact h.fetchTreeToken hE
  exact allNext_takeToken fetched fun i _ hu => hu.runToken token i

theorem tokenLoop (h : E.Allows s t) (hE : rdhdrEffects.Within E) (ha : t.activity = .tree) (passes : Nat) :
    AllNext (E.Allows s) (tokenLoop passes t) := by
  induction passes generalizing t with
  | zero => exact allNext_fault _
  | succ passes ih =>
    unfold Machine.tokenLoop
    refine (h.takeTreeToken hE ha).andThen fun u hu => ?_
    cases hau : u.activity with
    | tree => exact ih hu hau
    | idle | magic => exact allNext_next.2 hu

theorem startTree (h : E.Allows s t) (hE : rdhdrEffects.Within E) (hr : t.status.faulted = false) :
    E.Allows s (startTree t) := by
  have start := h.invalidateTree (hE.clears _ (by decide)) (hE.clears _ (by decide)) (hE.clears _ (by decide))
  exact ((start.withNalloc (hE.writes .nalloc (by decide)) 0).await (hE.awaits rfl) hr .tree).withScratch _

theorem execRdhdr (h : E.Allows s t) (hE : rdhdrEffects.Within E) : AllNext (E.Allows s) (execRdhdr t) :=
  allNext_unlessFaulted_of_ready h fun hr => (h.startTree hE hr).tokenLoop hE rfl Config.nodeCap.succ

end Effects.Allows
end Sys2Proof.Machine
end

section
/-! SUPPORT. Trees in `NODE` (00_scope.md R17, 10_state.md R37): that the written entries below an index hold a tree, at which
indices, as a relation without a bound on the depth; `State.subtree`, `State.preorder` and `State.treeOk` in its terms. -/

namespace Sys2Proof.Machine

/-! ### Trees as values -/

theorem HTree.size_pos (T : HTree) : 0 < T.size := by
  cases T <;> simp only [HTree.size] <;> omega

/-- Every leaf but one asks for an internal node. -/
theorem HTree.size_eq_syms (T : HTree) : T.size + 1 = 2 * T.syms.length := by
  induction T with
  | leaf x => rfl
  | node l r hl hr => simp only [HTree.size, HTree.syms, List.length_append]; omega

theorem HTree.depth_lt_syms_length (T : HTree) : T.depth < T.syms.length := by
  induction T with
  | leaf x => exact Nat.zero_lt_one
  | node l r hl hr => simp only [HTree.depth, HTree.syms, List.length_append]; omega

theorem HTree.depth_lt_size (T : HTree) : T.depth < T.size := by
  have hs := T.size_eq_syms
  have hd := T.depth_lt_syms_length
  omega

/-! ### Trees in the node array -/

/-- The written entries of `NODE` hold the tree below the index, its nodes in pre-order at the given indices. -/
inductive State.Spans (s : State) : Idx → HTree → List Nat → Prop where
  | leaf {i : Idx} {e : NodeEntry} (he : s.readNode i = some e) (hk : e.kind = .leaf) :
      State.Spans s i (.leaf e.sym) [i.toNat]
  | node {i : Idx} {e : NodeEntry} {l r : HTree} {ls rs : List Nat} (he : s.readNode i = some e)
      (hk : e.kind = .internal) (hl : State.Spans s e.left l ls) (hr : State.Spans s e.right r rs) :
      State.Spans s i (.node l r) (i.toNat :: (ls ++ rs))

namespace State.Spans

variable {s t : State} {i : Idx} {T : HTree} {is : List Nat}

theorem length_eq (h : s.Spans i T is) : is.length = T.size := by
  induction h with
  | leaf => rfl
  | node _ _ _ _ ihl ihr => simp only [List.length_cons, List.length_append, HTree.size]; omega

/-- Only written entries are in a tree (R46). -/
theorem lt (h : s.Spans i T is) : ∀ k ∈ is, k < s.nalloc.toNat ∧ k < 513 := by
  induction h with
  | leaf he _ => simpa using (readNode_eq_some.1 he).imp_right And.left
  | node he _ _ _ ihl ihr =>
    rintro k (_ | ⟨_, hk⟩)
    · exact (readNode_eq_some.1 he).imp_right And.left
    · exact (List.mem_append.1 hk).elim (ihl k) (ihr k)

/-- A tree stands where its own entries stand. -/
theorem congr (h : s.Spans i T is) (hst : ∀ j : Idx, j.toNat ∈ is → t.readNode j = s.readNode j) : t.Spans i T is := by
  induction h with
  | leaf he hk => exact .leaf ((hst _ (by simp)).trans he) hk
  | node he hk _ _ ihl ihr =>
    refine .node ((hst _ (by simp)).trans he) hk (ihl fun j hj => hst j ?_) (ihr fun j hj => hst j ?_)
    · exact List.mem_cons_of_mem _ (List.mem_append_left _ hj)
    · exact List.mem_cons_of_mem _ (List.mem_append_right _ hj)

theorem subtree_eq (h : s.Spans i T is) {depth : Nat} (hd : T.depth < depth) : s.subtree depth i = some T := by
  induction h generalizing depth with
  | leaf he hk =>
    obtain ⟨depth, rfl⟩ := Nat.exists_eq_add_one.2 hd
    simp only [State.subtree, he, hk]
  | node he hk _ _ ihl ihr =>
    simp only [HTree.depth] at hd
    obtain ⟨depth, rfl⟩ := Nat.exists_eq_add_one.2 (Nat.zero_lt_of_lt hd)
    simp only [State.subtree, he, hk, ihl (depth := depth) (by omega), ihr (depth := depth) (by omega)]

theorem preorder_eq (h : s.Spans i T is) {depth : Nat} (hd : T.depth < depth) : s.preorder depth i = some is := by
  induction h generalizing depth with
  | leaf he hk =>
    obtain ⟨depth, rfl⟩ := Nat.exists_eq_add_one.2 hd
    simp only [State.preorder, he, hk]
  | node he hk _ _ ihl ihr =>
    simp only [HTree.depth] at hd
    obtain ⟨depth, rfl⟩ := Nat.exists_eq_add_one.2 (Nat.zero_lt_of_lt hd)
    simp only [State.preorder, he, hk, ihl (depth := depth) (by omega), ihr (depth := depth) (by omega)]

/-- A tree whose nodes have an entry each is no deeper than the array is long (R8). -/
theorem depth_lt_nodeCap (h : s.Spans i T is) (hn : is.Nodup) : T.depth < 513 := by
  have size : is.length ≤ 513 := by
    simpa using (List.subperm_of_subset hn fun k hk => List.mem_range.2 (h.lt k hk).2).length_le
  have := T.depth_lt_size
  have := h.length_eq
  omega

end State.Spans

variable {s : State} {i : Idx} {T : HTree} {is : List Nat}

theorem spans_of_subtree {depth : Nat} (h : s.subtree depth i = some T) : ∃ is, s.Spans i T is ∧ T.depth < depth := by
  induction depth generalizing i T with
  | zero => cases h
  | succ depth ih =>
    unfold State.subtree at h
    cases he : s.readNode i with
    | none => simp [he] at h
    | some e =>
      cases hk : e.kind with
      | leaf =>
        simp only [he, hk, Option.some.injEq] at h
        subst h
        exact ⟨_, .leaf he hk, Nat.succ_pos _⟩
      | internal =>
        simp only [he, hk] at h
        split at h
        next l r hl hr =>
          cases h
          obtain ⟨ls, hls, hdl⟩ := ih hl
          obtain ⟨rs, hrs, hdr⟩ := ih hr
          exact ⟨_, .node he hk hls hrs, by simp only [HTree.depth]; omega⟩
        · cases h

theorem spans_of_preorder {depth : Nat} (h : s.preorder depth i = some is) : ∃ T, s.Spans i T is ∧ T.depth < depth := by
  induction depth generalizing i is with
  | zero => cases h
  | succ depth ih =>
    unfold State.preorder at h
    cases he : s.readNode i with
    | none => simp [he] at h
    | some e =>
      cases hk : e.kind with
      | leaf =>
        simp only [he, hk, Option.some.injEq] at h
        subst h
        exact ⟨_, .leaf he hk, Nat.succ_pos _⟩
      | internal =>
        simp only [he, hk] at h
        split at h
        next ls rs hl hr =>
          cases h
          obtain ⟨l, hls, hdl⟩ := ih hl
          obtain ⟨r, hrs, hdr⟩ := ih hr
          exact ⟨_, .node he hk hls hrs, by simp only [HTree.depth]; omega⟩
        · cases h

/-- R37, without the bound on the depth. -/
theorem treeOk_iff :
    s.treeOk = true ↔ ∃ T is, s.Spans s.root T is ∧ is.Nodup ∧ is.length = s.nalloc.toNat := by
  unfold State.treeOk
  constructor
  · intro h
    split at h
    · cases h
    next is hp =>
      obtain ⟨T, hT, -⟩ := spans_of_preorder hp
      simp only [Bool.and_eq_true, decide_eq_true_eq, beq_iff_eq] at h
      exact ⟨T, is, hT, h⟩
  · rintro ⟨T, is, hT, hn, hl⟩
    simp only [hT.preorder_eq (hT.depth_lt_nodeCap hn), hn, hl, decide_true, beq_self_eq_true, Bool.and_self]

/-! ### What the tree of a state depends on -/

theorem readNode_congr {t : State} (hn : t.node = s.node) (ha : t.nalloc = s.nalloc) (j : Idx) :
    t.readNode j = s.readNode j := by
  simp only [State.readNode, hn, ha]

theorem preorder_congr {t : State} (h : ∀ j, t.readNode j = s.readNode j) (depth : Nat) (i : Idx) :
    t.preorder depth i = s.preorder depth i := by
  induction depth generalizing i with
  | zero => rfl
  | succ depth ih => simp only [State.preorder, h, ih]

theorem subtree_congr {t : State} (h : ∀ j, t.readNode j = s.readNode j) (depth : Nat) (i : Idx) :
    t.subtree depth i = s.subtree depth i := by
  induction depth generalizing i with
  | zero => rfl
  | succ depth ih => simp only [State.subtree, h, ih]

section Congr

variable {t : State} (hn : t.node = s.node) (ha : t.nalloc = s.nalloc)

include hn ha

theorem weightsOk_congr : t.weightsOk = s.weightsOk := by
  simp only [State.weightsOk, State.nodeAt, hn, ha]

variable (hr : t.root = s.root)

include hr

theorem treeOk_congr : t.treeOk = s.treeOk := by
  simp only [State.treeOk, preorder_congr (readNode_congr hn ha), hr, ha]

theorem tree_congr : t.tree = s.tree := by
  simp only [State.tree, subtree_congr (readNode_congr hn ha), hr]

theorem builtOk_congr : t.builtOk = s.builtOk := by
  simp only [State.builtOk, tree_congr hn ha hr, weightsOk_congr hn ha]

theorem codesOk_congr (hc : t.code = s.code) : t.codesOk = s.codesOk := by
  simp only [State.codesOk, tree_congr hn ha hr, State.codeAt, hc]

end Congr

theorem freqOk_congr {t : State} (hf : t.freq = s.freq) (hc : t.cntW = s.cntW) : t.freqOk = s.freqOk := by
  unfold State.freqOk State.freqAt
  rw [hf, hc]

end Sys2Proof.Machine
end

section
/-! SUPPORT. What a port transaction does on a bound source and on an open sink (20_memory.md R61, R62, R64). -/

namespace Sys2Proof.Machine

variable {s : State}

/-- A read of a width in range from a bound source: all of the bits, or `NODATA` (R61). -/
theorem srcRead_of_bound {src : Source} (hs : s.source = some src) {n : Nat} (h0 : n ≠ 0) (h32 : n ≤ 32) :
    (∃ v < 2 ^ n, src.pos + n ≤ src.bits.length ∧
      srcRead n s = .data v { s with
        source := some { src with pos := src.pos + n }, trace := s.trace ++ [.srcRead n (some v)] }) ∨
      srcRead n s = .noData { s with
        source := some { src with eos := true }, trace := s.trace ++ [.srcRead n none] } := by
  cases hr : srcRead n s with
  | refused r =>
    have width : ¬(n = 0 ∨ Config.portMaxN < n) := by simp only [Config.portMaxN]; omega
    simp only [srcRead, hs, if_neg width] at hr
    split at hr <;> cases hr
  | noData t =>
    obtain ⟨src', hs', -, -, -, rfl⟩ := srcRead_eq_noData hr
    cases hs.symm.trans hs'
    exact .inr rfl
  | data v t =>
    have lt := srcRead_lt hr
    obtain ⟨src', hs', -, -, -, hp, -, rfl⟩ := srcRead_eq_data hr
    cases hs.symm.trans hs'
    exact .inl ⟨v, lt, hp, rfl⟩

theorem srcReset_of_bound {src : Source} (hs : s.source = some src) :
    srcReset s = .next { s with source := some src.rewound, trace := s.trace ++ [.srcReset] } :=
  srcReset_eq_next.2 ⟨src, hs, rfl⟩

theorem sinkWrite_of_open {snk : Sink} (hs : s.sink = some snk) (hc : snk.closed = false) {n : Nat} (h0 : n ≠ 0)
    (h32 : n ≤ 32) (v : Nat) :
    sinkWrite n v s = .next { s with
      sink := some { snk with out := snk.out ++ bitsOf n v }, trace := s.trace ++ [.sinkWrite n v] } :=
  sinkWrite_eq_next.2 ⟨snk, hs, hc, h0, h32, rfl⟩

end Sys2Proof.Machine
end

section
/-! SUPPORT. RDHDR on any source (43_header_codec.md R164 to R166, R170, R171): while it waits for a node, the entries below `NALLOC`
hold the nodes on `STK` and, next to each whose left subtree is done, that subtree, in pre-order numbers without a gap. -/

namespace Sys2Proof.Machine

/-! ### Fetching a token -/

theorem decode_inode : decode (.wire (bitsOf 1 0)) = .ok .wInode := by decide

theorem decode_leaf (v : Nat) : decode (.wire (bitsOf 1 1 ++ bitsOf 9 v)) = .ok (.wLeaf (v % 2 ^ 9)) := by
  have cons : bitsOf 1 1 ++ bitsOf 9 v = true :: bitsOf 9 v := rfl
  simp [cons, decode, decodeWire, intOf_bitsOf]

/-- On a bound source, the fetch of a tree token ends with a token of a tree, only the source read; or `E_MALFORMED_TREE` ends the
operation (R170). -/
theorem fetchTreeToken_of_bound {s : State} {src : Source} (hs : s.source = some src) :
    ∃ (src' : Source) (trace : List PortEvent) (nalloc : Idx),
      (∃ i, (i = .wInode ∨ ∃ sym, i = .wLeaf sym) ∧
        fetchTreeToken s = .got i { s with source := some src', trace := trace }) ∨
      fetchTreeToken s = .ended (raiseInTree .malformedTree
        { s with source := some src', trace := trace, nalloc := nalloc }) := by
  unfold fetchTreeToken
  rcases srcRead_of_bound hs (n := 1) (by decide) (by decide) with ⟨flag, hf, -, hr⟩ | hr
  · rw [hr]
    dsimp only
    obtain rfl | rfl : flag = 0 ∨ flag = 1 := by omega
    · rw [if_pos (by decide), decode_inode]
      exact ⟨_, _, 0, .inl ⟨.wInode, .inl rfl, rfl⟩⟩
    · rw [if_neg (by decide)]
      generalize ht : ({ s with
        source := some { src with pos := src.pos + 1 }
        trace := s.trace ++ [.srcRead 1 (some 1)] } : State) = t
      have hts : t.source = some { src with pos := src.pos + 1 } := by rw [← ht]
      rcases srcRead_of_bound hts (n := 9) (by decide) (by decide) with ⟨v, -, -, hr'⟩ | hr'
      · rw [hr']
        dsimp only
        rw [decode_leaf, ← ht]
        exact ⟨_, _, 0, .inl ⟨_, .inr ⟨_, rfl⟩, rfl⟩⟩
      · rw [hr', ← ht]
        exact ⟨_, _, _, .inr rfl⟩
  · rw [hr]
    exact ⟨_, _, s.nalloc, .inr rfl⟩

/-! ### The nodes that are still being read -/

/-- The frames on `STK` are internal nodes, and fill, with the left subtrees that are done, the entries below `n` (R164, R165). -/
inductive State.Pending (s : State) : List Frame → Nat → Prop where
  | nil : State.Pending s [] 0
  | left {p : Idx} {e : NodeEntry} {stk : List Frame} (he : s.readNode p = some e) (hk : e.kind = .internal)
      (h : State.Pending s stk p.toNat) : State.Pending s (⟨p, false⟩ :: stk) (p.toNat + 1)
  | right {p : Idx} {e : NodeEntry} {stk : List Frame} {T : HTree} {m : Nat} (he : s.readNode p = some e)
      (hk : e.kind = .internal) (h : State.Pending s stk p.toNat)
      (hT : s.Spans (p + 1) T (List.range' (p.toNat + 1) m)) : State.Pending s (⟨p, true⟩ :: stk) (p.toNat + 1 + m)

theorem State.Pending.congr {s t : State} {stk : List Frame} {n : Nat} (h : s.Pending stk n)
    (hst : ∀ j : Idx, j.toNat < n → t.readNode j = s.readNode j) : t.Pending stk n := by
  induction h with
  | nil => exact .nil
  | left he hk _ ih => exact .left ((hst _ (by omega)).trans he) hk (ih fun j hj => hst j (by omega))
  | right he hk _ hT ih =>
    refine .right ((hst _ (by omega)).trans he) hk (ih fun j hj => hst j (by omega)) (hT.congr fun j hj => hst j ?_)
    have := List.mem_range'_1.1 hj
    omega

/-- RDHDR waits for a node on a bound source. -/
structure State.Reading (s : State) : Prop where
  tree       : s.activity = .tree
  bound      : ∃ src, s.source = some src
  nalloc_lt  : s.nalloc.toNat < 513
  pending    : s.Pending s.scratch.stk s.nalloc.toNat

/-- How a token leaves a block with the given `STATUS` and `ERR`: it waits for the next node, of index `n`; or the tree is whole; or one
of RDHDR's faults is raised (R164, R223, R226). -/
inductive HeaderOutcome (st : Status) (err : Option ErrKind) (n : Nat) (t : State) : Prop where
  | waits (h : t.Reading) (hn : t.nalloc.toNat = n) (hst : t.status = st) (herr : t.err = err)
  | whole (ha : t.activity = .idle) (hT : t.treeOk = true) (hst : t.status = { st with treeValid := true })
      (herr : t.err = err)
  | faulted (e : ErrKind) (he : e = .malformedTree ∨ e = .treeOverflow) (ha : t.activity = .idle)
      (hst : t.status = { st with faulted := true }) (herr : t.err = some (err.getD e))

theorem raiseInTree_outcome (s : State) {e : ErrKind} (he : e = .malformedTree ∨ e = .treeOverflow) (n : Nat) :
    ∃ t, raiseInTree e s = .next t ∧ HeaderOutcome s.status s.err n t :=
  ⟨_, rfl, .faulted e he rfl rfl (raise_err e s)⟩

/-! ### A token -/

section Token

variable {s : State} {stk : List Frame}

theorem awaitNode_outcome (ha : s.activity = .tree) (hb : ∃ src, s.source = some src)
    (hp : s.Pending stk s.nalloc.toNat) :
    ∃ t, awaitNode stk s = .next t ∧ HeaderOutcome s.status s.err s.nalloc.toNat t := by
  unfold awaitNode
  split
  next room =>
    exact ⟨_, rfl, .waits ⟨ha, hb, room, hp.congr fun j _ => readNode_congr rfl rfl j⟩ rfl rfl rfl⟩
  · exact raiseInTree_outcome s (.inr rfl) _

/-- A write of an entry is seen there, and nowhere else (R46). -/
theorem readNode_setNode (s : State) (i j : Idx) (e : NodeEntry) :
    (s.setNode i e).readNode j = if i = j ∧ (s.readNode j).isSome then some e else s.readNode j := by
  unfold State.readNode
  by_cases hj : j.toNat < s.nalloc.toNat
  · by_cases hij : i = j
    · subst hij
      by_cases hk : i.toNat < 513 <;> simp [hj, hk]
    · have : i.toNat ≠ j.toNat := fun h => hij (BitVec.eq_of_toNat_eq h)
      simp [hj, hij, this]
  · simp [hj]

/-- A node whose children have been read is the root of their tree (R164, R165). -/
theorem spans_setChildren {p i : Idx} {e : NodeEntry} {l r : HTree} {ls rs : List Nat} (he : s.readNode p = some e)
    (hk : e.kind = .internal) (hl : s.Spans (p + 1) l ls) (hr : s.Spans i r rs) (hpl : p.toNat ∉ ls)
    (hpr : p.toNat ∉ rs) : (setChildren p (p + 1) i s).Spans p (.node l r) (p.toNat :: (ls ++ rs)) := by
  have other : ∀ is : List Nat, p.toNat ∉ is → ∀ j : Idx, j.toNat ∈ is →
      (setChildren p (p + 1) i s).readNode j = s.readNode j := by
    intro is hp j hj
    have : p ≠ j := fun h => hp (h ▸ hj)
    rw [setChildren, readNode_setNode, if_neg (by simp [this])]
  have here : (setChildren p (p + 1) i s).readNode p = some { e with left := p + 1, right := i } := by
    rw [setChildren, readNode_setNode, if_pos ⟨rfl, by rw [he]; rfl⟩, (readNode_eq_some.1 he).2.2]
  exact .node here hk (hl.congr (other ls hpl)) (hr.congr (other rs hpr))

theorem endTree_outcome {i : Idx} {T : HTree} (hT : s.Spans i T (List.range' 0 s.nalloc.toNat))
    (n : Nat) : ∃ t, endTree i s = .next t ∧ HeaderOutcome s.status s.err n t := by
  have whole : ({ s with root := i } : State).treeOk = true :=
    treeOk_iff.2 ⟨T, _, hT.congr fun j _ => readNode_congr rfl rfl j, List.nodup_range', by simp⟩
  refine ⟨_, rfl, .whole rfl ?_ rfl rfl⟩
  rw [← whole]
  exact treeOk_congr rfl rfl rfl

theorem returnSubtree_outcome {i : Idx} {T : HTree} {m : Nat} (ha : s.activity = .tree)
    (hb : ∃ src, s.source = some src) (hp : s.Pending stk i.toNat) (hT : s.Spans i T (List.range' i.toNat m))
    (hm : s.nalloc.toNat = i.toNat + m) :
    ∃ t, returnSubtree stk i s = .next t ∧ HeaderOutcome s.status s.err s.nalloc.toNat t := by
  induction stk generalizing i s T m with
  | nil =>
    generalize hi : i.toNat = n at hp
    cases hp
    rw [hi] at hT hm
    rw [Nat.zero_add] at hm
    exact endTree_outcome (hm ▸ hT) _
  | cons frame stk ih =>
    obtain ⟨p, leftDone⟩ := frame
    generalize hi : i.toNat = n at hp
    cases hp with
    | left he hk hstk =>
      have succ : i = p + 1 := by
        have := (readNode_eq_some.1 he).2.1
        exact BitVec.eq_of_toNat_eq (hi.trans (toNat_succ_of_lt this).symm)
      rw [hi] at hm hT
      exact awaitNode_outcome ha hb (hm ▸ .right he hk hstk (succ ▸ hT))
    | @right _ e _ L k he hk hstk hL =>
      rw [hi] at hm hT
      have whole := spans_setChildren he hk hL hT (by simp) (by simp; omega)
      have range : p.toNat :: (List.range' (p.toNat + 1) k ++ List.range' (p.toNat + 1 + k) m) =
          List.range' p.toNat (1 + k + m) := by
        rw [List.range'_append_1, Nat.add_assoc 1, Nat.add_comm 1, List.range'_succ]
      rw [range] at whole
      have below : (setChildren p (p + 1) i s).Pending stk p.toNat := by
        refine hstk.congr fun j hj => ?_
        have : p ≠ j := fun h => by rw [h] at hj; omega
        rw [setChildren, readNode_setNode, if_neg (by simp [this])]
      exact ih (s := setChildren p (p + 1) i s) ha hb below whole (by rw [setChildren_nalloc, hm]; omega)

/-- Allocating writes the entry at the old `NALLOC` and leaves those below it (R22). -/
theorem readNode_allocNode (hn : s.nalloc.toNat < 513) (upd : NodeEntry → NodeEntry) (j : Idx) :
    (s.allocNode upd).readNode j = if j = s.nalloc then some (upd (s.nodeAt s.nalloc)) else s.readNode j := by
  have succ := toNat_succ_of_lt hn
  unfold State.readNode
  rw [allocNode_nalloc, allocNode_node, succ, Vector.getElem?_setIfInBounds]
  by_cases h : j = s.nalloc
  · subst h
    simp [hn]
  · have ne : s.nalloc.toNat ≠ j.toNat := fun e => h (BitVec.eq_of_toNat_eq e.symm)
    have iff : j.toNat < s.nalloc.toNat + 1 ↔ j.toNat < s.nalloc.toNat := by omega
    simp only [if_neg h, if_neg ne, iff]

theorem pending_allocNode {n : Nat} (hn : s.nalloc.toNat < 513) (h : s.Pending stk n) (hle : n ≤ s.nalloc.toNat)
    (upd : NodeEntry → NodeEntry) : (s.allocNode upd).Pending stk n :=
  h.congr fun j hj => by rw [readNode_allocNode hn, if_neg (by rintro rfl; omega)]

theorem execWInode_outcome (h : s.Reading) :
    ∃ t, execWInode s = .next t ∧ HeaderOutcome s.status s.err (s.nalloc.toNat + 1) t := by
  have room := h.nalloc_lt
  have succ := toNat_succ_of_lt room
  unfold execWInode
  rw [h.tree]
  dsimp only
  rw [if_pos room, ← succ]
  refine awaitNode_outcome (s := s.allocNode _) h.tree h.bound ?_
  rw [allocNode_nalloc, succ]
  exact .left (by rw [readNode_allocNode room, if_pos rfl]) rfl (pending_allocNode room h.pending le_rfl _)

theorem execWLeaf_outcome (h : s.Reading) (sym : Nat) :
    ∃ t, execWLeaf sym s = .next t ∧ HeaderOutcome s.status s.err (s.nalloc.toNat + 1) t := by
  have room := h.nalloc_lt
  have succ := toNat_succ_of_lt room
  unfold execWLeaf
  rw [h.tree]
  dsimp only
  rw [if_pos room, ← succ]
  have pending := pending_allocNode room h.pending le_rfl fun e => { e with kind := .leaf, sym := symField sym }
  have leaf := State.Spans.leaf (s := s.allocNode fun e => { e with kind := .leaf, sym := symField sym })
    (i := s.nalloc) (by rw [readNode_allocNode room, if_pos rfl]) rfl
  exact returnSubtree_outcome (m := 1) h.tree h.bound (pending.congr fun j _ => readNode_congr rfl rfl j)
    (leaf.congr fun j _ => readNode_congr rfl rfl j) succ

theorem takeToken_outcome (h : s.Reading) :
    ∃ t, takeToken s = .next t ∧ HeaderOutcome s.status s.err (s.nalloc.toNat + 1) t := by
  obtain ⟨src, hs⟩ := h.bound
  have fetch : fetchWire s = fetchTreeToken s := by simp only [fetchWire, h.tree]
  obtain ⟨src', trace, nalloc, ⟨i, hi, hf⟩ | hf⟩ := fetchTreeToken_of_bound hs
  · have reading : ({ s with source := some src', trace := trace } : State).Reading :=
      ⟨h.tree, ⟨_, rfl⟩, h.nalloc_lt, h.pending.congr fun j _ => readNode_congr rfl rfl j⟩
    rw [takeToken_got (fetch.trans hf)]
    rcases hi with rfl | ⟨sym, rfl⟩
    · exact execWInode_outcome reading
    · exact execWLeaf_outcome reading sym
  · simp only [takeToken, fetch, hf]
    exact raiseInTree_outcome _ (.inl rfl) _

end Token

/-! ### RDHDR -/

/-- Each token takes an entry of the array, so the loop's bound is not passed (R276). -/
theorem tokenLoop_outcome {s : State} {passes : Nat} (h : s.Reading) (hp : 513 < passes + s.nalloc.toNat) :
    ∃ t, tokenLoop passes s = .next t ∧ ¬ t.Reading ∧ HeaderOutcome s.status s.err 0 t := by
  induction passes generalizing s with
  | zero => have := h.nalloc_lt; omega
  | succ passes ih =>
    obtain ⟨t, ht, out⟩ := takeToken_outcome h
    unfold tokenLoop
    rw [ht, andThen_next]
    cases out with
    | waits hw hn hst herr =>
      rw [hw.tree, ← hst, ← herr]
      exact ih hw (by omega)
    | whole ha hT hst herr =>
      rw [ha]
      exact ⟨t, rfl, fun hr => by simpa [ha] using hr.tree, .whole ha hT hst herr⟩
    | faulted e he ha hst herr =>
      rw [ha]
      exact ⟨t, rfl, fun hr => by simpa [ha] using hr.tree, .faulted e he ha hst herr⟩

theorem reading_startTree {s : State} {src : Source} (hs : s.source = some src) : (startTree s).Reading :=
  ⟨rfl, ⟨src, hs⟩, by simp, .nil⟩

/-- RDHDR's two ends from a state without a fault: a tree that is whole, or one of its two faults (R165, R166). -/
def RdhdrEnds (s t : State) : Prop :=
  t.activity = .idle ∧
    ((t.treeOk = true ∧ t.err = s.err ∧
        t.status = { s.status with treeValid := true, treeBuilt := false, codeValid := false }) ∨
      ∃ e, (e = .malformedTree ∨ e = .treeOverflow) ∧ t.err = some (s.err.getD e) ∧
        t.status = { s.status with treeValid := false, treeBuilt := false, codeValid := false, faulted := true })

/-- RDHDR ends on any source (R276). -/
theorem execRdhdr_ends {s : State} {src : Source} (hr : s.status.faulted = false) (hs : s.source = some src) :
    ∃ t, execRdhdr s = .next t ∧ RdhdrEnds s t := by
  obtain ⟨t, ht, hn, out⟩ := tokenLoop_outcome (passes := Config.nodeCap.succ) (reading_startTree hs) (by simp)
  refine ⟨t, (unlessFaulted_ready hr _).trans ht, ?_⟩
  cases out with
  | waits hw => exact absurd hw hn
  | whole ha hT hst herr => exact ⟨ha, .inl ⟨hT, herr, hst⟩⟩
  | faulted e he ha hst herr => exact ⟨ha, .inr ⟨e, he, herr, hst⟩⟩

theorem tokenLoop_of_refused {s : State} {r : Refusal} (h : takeToken s = .refused r) (passes : Nat) :
    tokenLoop (passes + 1) s = .refused r := by
  rw [tokenLoop, h, andThen_refused]

theorem allNext_execRdhdr {s : State} (hr : s.status.faulted = false) : AllNext (RdhdrEnds s) (execRdhdr s) := by
  intro t ht
  cases hs : s.source with
  | none =>
    have token : takeToken (startTree s) = .refused .sourceUnbound := by
      simp only [takeToken, fetchWire, fetchTreeToken, srcRead, startTree_activity, startTree_source, hs]
    rw [execRdhdr, unlessFaulted_ready hr, tokenLoop_of_refused token] at ht
    cases ht
  | some src =>
    obtain ⟨u, hu, ends⟩ := execRdhdr_ends hr hs
    cases hu.symm.trans ht
    exact ends

/-- Settles O33: from a ready state the fault recorded is the one raised. -/
theorem rdhdrEndsWithTreeOrFault : Obligations.RdhdrEndsWithTreeOrFault := by
  rintro s src ⟨hr, he⟩ hs
  obtain ⟨t, ht, -, ⟨hT, herr, hst⟩ | ⟨e, hk, herr, hst⟩⟩ := execRdhdr_ends hr hs
  · exact ⟨t, ht, .inl ⟨⟨hst ▸ hr, herr.trans he⟩, by rw [hst], hT⟩⟩
  · rw [he, Option.getD_none] at herr
    exact ⟨t, ht, .inr ⟨by rw [hst], by rw [hst], by rcases hk with rfl | rfl <;> simp [herr]⟩⟩

end Sys2Proof.Machine
end

section
/-! SUPPORT. The macros COMPRESS and DECOMPRESS (46_control.md R109, R201, R202): each step finds the flags it needs set by the steps
before it, so no step raises `E_SEQUENCE`; and with that what every instruction does. -/

namespace Sys2Proof.Machine

theorem AllNext.mono {P Q : State → Prop} {o : Outcome} (h : AllNext P o) (hPQ : ∀ t, P t → Q t) : AllNext Q o :=
  fun t ht => hPQ t (h t ht)

theorem AllNext.and {P Q : State → Prop} {o : Outcome} (hP : AllNext P o) (hQ : AllNext Q o) :
    AllNext (fun t => P t ∧ Q t) o :=
  fun t ht => ⟨hP t ht, hQ t ht⟩

/-! ### The flags a step needs and sets -/

/-- All of these flags are set. -/
def State.Holds (fs : List Flag) (s : State) : Prop := ∀ f ∈ fs, f.of s.status = true

/-- What a step of the sequencer may do, its prerequisite given. -/
def MacroStep.effects : MacroStep → Effects
  | .count => countEffects
  | .build => buildEffects
  | .gencode => gencodeEffects
  | .wrmagic | .wrhdr => writeEffects
  | .encode => encodeEffects
  | .rdmagic => rdmagicEffects
  | .rdhdr => rdhdrEffects
  | .decode => decodeEffects

/-- The prerequisite of a step (R204). -/
def MacroStep.needs : MacroStep → List Flag
  | .build => [.freqValid]
  | .gencode => [.treeValid, .treeBuilt]
  | .wrhdr | .decode => [.treeValid]
  | .encode => [.codeValid]
  | .count | .wrmagic | .rdmagic | .rdhdr => []

/-- The flags a step has set when it ends without a fault (R205). -/
def MacroStep.gives : MacroStep → List Flag
  | .count => [.freqValid]
  | .build => [.treeValid, .treeBuilt]
  | .gencode => [.codeValid]
  | .rdhdr => [.treeValid]
  | .wrmagic | .wrhdr | .encode | .rdmagic | .decode => []

/-- From a state in which the flags `fs` are set every step finds its prerequisite. -/
def inSequence : List Flag → List MacroStep → Bool
  | _, [] => true
  | fs, m :: ms =>
    m.needs.all (· ∈ fs) && inSequence (m.gives ++ fs.filter (· ∉ m.effects.clears)) ms

/-- The flags have been set, or the operation has ended with a fault. -/
def Gives (fs : List Flag) (t : State) : Prop := t.status.faulted = true ∨ t.Holds fs

theorem gives_nil (t : State) : Gives [] t := .inr nofun

theorem gives_freeScratch {fs : List Flag} {t : State} (h : Gives fs t) : Gives fs t.freeScratch := h

theorem countLoop_gives (s : State) (passes : Nat) : AllNext (Gives [.freqValid]) (countLoop passes s) := by
  induction passes generalizing s with
  | zero => exact allNext_fault _
  | succ passes ih =>
    unfold countLoop
    cases srcRead 8 s with
    | refused r => exact allNext_refused r
    | noData t => exact allNext_next.2 (.inr (by simp [State.Holds, Flag.of]))
    | data v t =>
      dsimp only
      split
      · exact ih _
      · exact allNext_next.2 (.inl rfl)

theorem takeRoot_gives (s : State) : AllNext (Gives [.treeValid, .treeBuilt]) (takeRoot s) := by
  unfold takeRoot
  split
  · exact allNext_fault _
  · exact allNext_next.2 (.inr (by simp [State.Holds, Flag.of]))

/-- A sequence ends as its second part does. -/
theorem allNext_andThen_of_forall {P : State → Prop} {o : Outcome} {f : State → Outcome} (h : ∀ s, AllNext P (f s)) :
    AllNext P (andThen o f) :=
  AllNext.andThen (P := fun _ => True) (fun _ _ => trivial) fun s _ => h s

theorem gives_of_rdhdrEnds {s t : State} (h : RdhdrEnds s t) : Gives [.treeValid] t := by
  obtain ⟨-, ⟨-, -, hst⟩ | ⟨e, -, -, hst⟩⟩ := h
  · exact .inr (by simp [State.Holds, Flag.of, hst])
  · exact .inl (by rw [hst])

theorem runStep_gives {m : MacroStep} {s : State} (hr : s.status.faulted = false) (hn : s.Holds m.needs) :
    AllNext (Gives m.gives) (runStep m s) := by
  cases m with
  | count =>
    simp only [runStep, execCount, unlessFaulted_ready hr]
    exact (countLoop_gives _ _).releaseScratch fun _ => gives_freeScratch
  | build =>
    have hf : s.status.freqValid = true := hn .freqValid (by decide)
    simp only [runStep, execBuild, unlessFaulted_ready hr, hf, requireFlags_true]
    exact (allNext_andThen_of_forall takeRoot_gives).releaseScratch fun _ => gives_freeScratch
  | gencode =>
    have hv : s.status.treeValid = true := hn .treeValid (by decide)
    have hb : s.status.treeBuilt = true := hn .treeBuilt (by decide)
    simp only [runStep, execGencode, unlessFaulted_ready hr, hv, hb, Bool.and_self, requireFlags_true]
    have valid : ∀ t : State, AllNext (Gives [.codeValid]) (.next t.validateCode) := fun t =>
      allNext_next.2 (.inr (by simp [State.Holds, Flag.of]))
    exact (allNext_andThen_of_forall valid).releaseScratch fun _ => gives_freeScratch
  | rdhdr => exact (allNext_execRdhdr hr).mono fun _ => gives_of_rdhdrEnds
  | wrmagic | wrhdr | encode | rdmagic | decode => exact fun t _ => gives_nil t

namespace Effects.Allows

variable {E : Effects} {s t : State}

/-- A step whose prerequisite holds does not raise `E_SEQUENCE`. -/
theorem runStep {m : MacroStep} (h : E.Allows s t) (hE : m.effects.Within E) (hn : t.Holds m.needs) :
    AllNext (E.Allows s) (runStep m t) := by
  have unneeded {c : Bool} (hc : c = true) : c = false → .sequence ∈ E.faults := fun hf => by simp [hc] at hf
  cases m with
  | count => exact h.execCount hE
  | build => exact h.execBuild hE (unneeded (hn .freqValid (by decide)))
  | gencode =>
    exact h.execGencode hE (unneeded (by
      rw [Bool.and_eq_true]; exact ⟨hn .treeValid (by decide), hn .treeBuilt (by decide)⟩))
  | wrmagic => exact h.execWrmagic
  | wrhdr => exact h.execWrhdr (unneeded (hn .treeValid (by decide)))
  | encode => exact h.execEncode hE (unneeded (hn .codeValid (by decide)))
  | rdmagic => exact h.execRdmagic hE
  | rdhdr => exact h.execRdhdr hE
  | decode => exact h.execDecode hE (unneeded (hn .treeValid (by decide)))

/-- A step without a fault keeps the flags it does not clear and has set its own. -/
theorem holds_after {m : MacroStep} {fs : List Flag} {u : State} (h : m.effects.Allows t u) (hf : t.Holds fs)
    (hu : u.status.faulted = false) (hg : Gives m.gives u) :
    u.Holds (m.gives ++ fs.filter (· ∉ m.effects.clears)) := by
  intro f hmem
  rcases List.mem_append.1 hmem with hmem | hmem
  · exact (hg.resolve_left (by simp [hu])) f hmem
  · obtain ⟨hfs, hclear⟩ := List.mem_filter.1 hmem
    exact (h.clears f (hf f hfs)).resolve_right (by simpa using hclear)

theorem runSteps (h : E.Allows s t) (hE : E.sequences = true) {ms : List MacroStep}
    (hms : ∀ m ∈ ms, m.effects.Within E) (hr : t.status.faulted = false) {fs : List Flag} (hf : t.Holds fs)
    (hseq : inSequence fs ms = true) : AllNext (E.Allows s) (runSteps ms t) := by
  induction ms generalizing t fs with
  | nil => exact allNext_next.2 (h.withSeq hE hr [])
  | cons m ms ih =>
    simp only [inSequence, Bool.and_eq_true, List.all_eq_true, decide_eq_true_eq] at hseq
    have hn : ({ t with seq := ms } : State).Holds m.needs := fun f hm => hf f (hseq.1 f hm)
    have hm := hms m List.mem_cons_self
    unfold Machine.runSteps
    refine (((h.withSeq hE hr ms).runStep hm hn).and (((refl m.effects _).runStep (.refl _) hn).and
      (runStep_gives (by exact hr) hn))).andThen ?_
    rintro u ⟨hu, hstep, hg⟩
    split
    · exact allNext_next.2 hu
    next hnot =>
      have hur : u.status.faulted = false := by simpa using hnot
      exact ih hu (fun m' hm' => hms m' (List.mem_cons_of_mem _ hm')) hur (holds_after hstep (fs := fs) hf hur hg) hseq.2

end Effects.Allows

/-! ### Every instruction -/

/-- An instruction does what `effectsOf` says, and nothing else. -/
theorem exec_allows {i : Instr} (hi : i ≠ .clear) (s : State) : AllNext ((effectsOf i).Allows s) (exec i s) := by
  have self := Effects.Allows.refl (effectsOf i) s
  have within := Effects.within_orSequence
  cases i with
  | clear => exact absurd rfl hi
  | count => exact self.execCount (.refl _)
  | build => exact self.execBuild (within _) fun _ => Effects.sequence_mem_orSequence _
  | gencode => exact self.execGencode (within _) fun _ => Effects.sequence_mem_orSequence _
  | wrmagic => exact self.execWrmagic
  | wrhdr => exact self.execWrhdr fun _ => Effects.sequence_mem_orSequence _
  | encode => exact self.execEncode (within _) fun _ => Effects.sequence_mem_orSequence _
  | rdmagic => exact self.execRdmagic (.refl _)
  | rdhdr => exact self.execRdhdr (.refl _)
  | decode => exact self.execDecode (within _) fun _ => Effects.sequence_mem_orSequence _
  | compress =>
    refine allNext_unlessFaulted_of_ready self fun hr => self.runSteps rfl ?_ hr (fs := []) nofun (by decide)
    intro m hm
    fin_cases hm <;> exact {}
  | decompress =>
    refine allNext_unlessFaulted_of_ready self fun hr => self.runSteps rfl ?_ hr (fs := []) nofun (by decide)
    intro m hm
    fin_cases hm <;> exact {}
  | wMagic => exact self.execWMagic
  | wInode => exact self.execWInode (.refl _)
  | wLeaf sym => exact self.execWLeaf (.refl _) sym

/-- Settles O13: no instruction but CLEAR takes a fault back. -/
theorem faultKeptUntilClear : Obligations.FaultKeptUntilClear := by
  intro i s t hi ht
  have h := exec_allows hi s t ht
  exact ⟨h.keepsErr, h.keepsFaulted⟩

end Sys2Proof.Machine
end

section
/-! The whole-machine rules of the ports and of the writers (10_state.md R21 to R39, 20_memory.md R60 to R72), read off the effects of
each instruction. -/

namespace Sys2Proof.Machine

variable {i : Instr} {s t : State}

/-! ### Ports -/

theorem rewinds_iff : (effectsOf i).rewinds = true ↔ i = .encode ∨ i = .compress := by
  cases i <;> simp

/-- Settles O54: CLEAR touches no port; of every other instruction the effects say it. -/
theorem portsChangeOnlyByTheirRules : Obligations.PortsChangeOnlyByTheirRules := by
  intro i s t ht
  by_cases hi : i = .clear
  · subst hi
    cases ht
    refine ⟨rfl, rfl, rfl, List.prefix_rfl, rfl, rfl, fun a b ha hb => ?_, fun a b ha hb => .inl ?_⟩
    · cases ha.symm.trans hb
      exact ⟨rfl, List.prefix_rfl⟩
    · cases ha.symm.trans hb
      exact ⟨rfl, rfl, le_rfl⟩
  · have h := exec_allows hi s t ht
    have source := h.source
    have sink := h.sink
    refine ⟨h.cntW, h.host, h.readout, h.trace, ?_, ?_, fun a b ha hb => ?_, fun a b ha hb => ?_⟩
    · cases hs : s.source <;> cases ht : t.source <;> simp [SourceMoves, hs, ht] at source ⊢
    · cases hs : s.sink <;> cases ht : t.sink <;> simp [SinkGrows, hs, ht] at sink ⊢
    · rw [ha, hb] at sink
      exact sink
    · rw [ha, hb] at source
      exact source.imp_right (And.imp_left rewinds_iff.1)

/-! ### Writers -/

theorem Effects.Allows.same_or {E : Effects} (h : E.Allows s t) (c : Cell) : c.Same s t ∨ c ∈ E.writes :=
  or_iff_not_imp_right.2 (h.same c)

theorem writes_freq (h : .freq ∈ (effectsOf i).writes) : i = .count ∨ i = .compress := by
  cases i <;> simp at h ⊢

theorem writes_code (h : .code ∈ (effectsOf i).writes) : i = .gencode ∨ i = .compress := by
  cases i <;> simp at h ⊢

theorem writes_pq (h : .pq ∈ (effectsOf i).writes) : i = .build ∨ i = .compress ∨ i = .clear := by
  cases i <;> simp at h ⊢

theorem writes_cur (h : .cur ∈ (effectsOf i).writes) : i = .decode ∨ i = .decompress := by
  cases i <;> simp at h ⊢

theorem writes_dstate (h : .dstate ∈ (effectsOf i).writes) : i = .decode ∨ i = .decompress ∨ i = .clear := by
  cases i <;> simp at h ⊢

theorem writes_tree (h : .node ∈ (effectsOf i).writes ∨ .root ∈ (effectsOf i).writes) :
    i = .build ∨ i = .compress ∨ i = .rdhdr ∨ i = .decompress ∨ i = .wInode ∨ ∃ sym, i = .wLeaf sym := by
  cases i <;> simp at h ⊢

theorem writes_nalloc (h : .nalloc ∈ (effectsOf i).writes) :
    i = .build ∨ i = .compress ∨ i = .rdhdr ∨ i = .decompress ∨ i = .wInode ∨ i = .clear ∨ ∃ sym, i = .wLeaf sym := by
  cases i <;> simp at h ⊢

/-! ### Flags -/

theorem sets_freqValid (h : .freqValid ∈ (effectsOf i).sets) : i = .count ∨ i = .compress := by
  cases i <;> simp at h ⊢

theorem clears_freqValid (h : .freqValid ∈ (effectsOf i).clears) : i = .count ∨ i = .compress ∨ i = .clear := by
  cases i <;> simp at h ⊢

theorem sets_treeValid (h : .treeValid ∈ (effectsOf i).sets) :
    i = .build ∨ i = .rdhdr ∨ i = .compress ∨ i = .decompress ∨ ∃ sym, i = .wLeaf sym := by
  cases i <;> simp at h ⊢

theorem clears_tree {f : Flag} (hf : f = .treeValid ∨ f = .treeBuilt) (h : f ∈ (effectsOf i).clears) :
    i = .count ∨ i = .build ∨ i = .rdhdr ∨ i = .compress ∨ i = .decompress ∨ i = .clear := by
  rcases hf with rfl | rfl <;> cases i <;> simp at h ⊢

theorem sets_treeBuilt (h : .treeBuilt ∈ (effectsOf i).sets) : i = .build ∨ i = .compress := by
  cases i <;> simp at h ⊢

theorem sets_codeValid (h : .codeValid ∈ (effectsOf i).sets) : i = .gencode ∨ i = .compress := by
  cases i <;> simp at h ⊢

theorem clears_codeValid (h : .codeValid ∈ (effectsOf i).clears) :
    i = .count ∨ i = .build ∨ i = .rdhdr ∨ i = .gencode ∨ i = .compress ∨ i = .decompress ∨ i = .clear := by
  cases i <;> simp at h ⊢

theorem faults_effectsOf (i : Instr) : (effectsOf i).faults = faultsOf i := by
  cases i <;> simp [faultsOf]

/-- Settles O55: of CLEAR its one next state says it, of every other instruction its effects. -/
theorem writersOfNonScratchState : Obligations.WritersOfNonScratchState := by
  intro i s t ht
  by_cases hi : i = .clear
  · subst hi
    cases ht
    simp [Status.zero]
  · have h := exec_allows hi s t ht
    have tree : (t.node = s.node ∧ t.root = s.root) ∨ .node ∈ (effectsOf i).writes ∨ .root ∈ (effectsOf i).writes := by
      have node : t.node = s.node ∨ _ := h.same_or .node
      have root : t.root = s.root ∨ _ := h.same_or .root
      tauto
    have faults := faults_effectsOf i
    exact ⟨(h.same_or .freq).imp_right writes_freq, (h.same_or .code).imp_right writes_code,
      (h.same_or .pq).imp_right writes_pq, (h.same_or .cur).imp_right writes_cur,
      (h.same_or .dstate).imp_right writes_dstate, tree.imp_right writes_tree, (h.same_or .nalloc).imp_right writes_nalloc,
      fun hf => (h.sets .freqValid hf).imp_right sets_freqValid,
      fun hf => (h.clears .freqValid hf).imp_right clears_freqValid,
      fun hf => (h.sets .treeValid hf).imp_right sets_treeValid,
      fun hf => (h.clears .treeValid hf).imp_right (clears_tree (.inl rfl)),
      fun hf => (h.sets .treeBuilt hf).imp_right sets_treeBuilt,
      fun hf => (h.clears .treeBuilt hf).imp_right (clears_tree (.inr rfl)),
      fun hf => (h.sets .codeValid hf).imp_right sets_codeValid,
      fun hf => (h.clears .codeValid hf).imp_right clears_codeValid,
      faults ▸ h.faults, fun hf => .inl (h.keepsFaulted hf),
      fun e => ⟨faults ▸ h.raises e, fun he => .inl (h.keepsErr e he)⟩⟩

end Sys2Proof.Machine
end

section
/-! SUPPORT. The code table of a tree (42_code_generator.md R150 to R155): `T.codes` has every leaf once, its lengths meet Kraft's sum,
and GENCODE writes it into `CODE`. -/

namespace Sys2Proof.Machine

/-! ### Codes of a tree -/

namespace HTree

theorem codes_fst (T : HTree) (p : Bits) : (T.codes p).map Prod.fst = T.syms := by
  induction T generalizing p with
  | leaf x => rfl
  | node l r hl hr => simp only [codes, syms, List.map_append, hl, hr]

theorem mem_syms_of_mem_codes {T : HTree} {p : Bits} {c : Sym × Bits} (h : c ∈ T.codes p) : c.1 ∈ T.syms :=
  T.codes_fst p ▸ List.mem_map_of_mem h

/-- A code is the path to its leaf, so no longer than the tree is deep. -/
theorem length_of_mem_codes {T : HTree} {p : Bits} {c : Sym × Bits} (h : c ∈ T.codes p) :
    p.length ≤ c.2.length ∧ c.2.length ≤ p.length + T.depth := by
  induction T generalizing p with
  | leaf x =>
    cases List.mem_singleton.1 h
    exact ⟨le_rfl, Nat.le_add_right _ _⟩
  | node l r hl hr =>
    rcases List.mem_append.1 h with h | h
    · have := hl h
      simp only [List.length_append, List.length_singleton, depth] at this ⊢
      omega
    · have := hr h
      simp only [List.length_append, List.length_singleton, depth] at this ⊢
      omega

/-- Only a lone leaf has an empty code (R153). -/
theorem length_pos_of_mem_codes {T : HTree} (hT : 3 ≤ T.size) {c : Sym × Bits} (h : c ∈ T.codes []) :
    1 ≤ c.2.length := by
  cases T with
  | leaf x => simp [size] at hT
  | node l r =>
    rcases List.mem_append.1 h with h | h <;> simpa using (length_of_mem_codes h).1

/-- Kraft's sum of a strict binary tree (R155). -/
theorem kraft (T : HTree) {p : Bits} {n : Nat} (h : p.length + T.depth ≤ n) :
    ((T.codes p).map fun c => 2 ^ (n - c.2.length)).sum = 2 ^ (n - p.length) := by
  induction T generalizing p with
  | leaf x => simp [codes]
  | node l r hl hr =>
    simp only [depth] at h
    have half : n - p.length = n - (p.length + 1) + 1 := by omega
    simp only [codes, List.map_append, List.sum_append]
    rw [hl (by rw [List.length_append, List.length_singleton]; omega),
      hr (by rw [List.length_append, List.length_singleton]; omega), half, List.length_append, List.length_append,
      List.length_singleton, List.length_singleton, pow_succ]
    ring

/-- A tree of the symbols 0 to 256, each once, is at most 256 edges deep (R153). -/
theorem depth_le_of_syms {T : HTree} (hn : T.syms.Nodup) (hle : ∀ x ∈ T.syms, x.toNat ≤ 256) : T.depth ≤ 256 := by
  have hlen : T.syms.length ≤ 257 := by
    have sub := List.subperm_of_subset (hn.map BitVec.toNat_injective) (l₂ := List.range 257) fun k hk => by
      obtain ⟨x, hx, rfl⟩ := List.mem_map.1 hk
      exact List.mem_range.2 (Nat.lt_succ_of_le (hle x hx))
    simpa using sub.length_le
  have := T.depth_lt_syms_length
  omega

end HTree

/-! ### Writing a code table -/

/-- `CODE[sym] <- {valid 1, len |p|, val int(p)}` (R150), on the array. -/
def setCode (v : Vector CodeEntry 257) (c : Sym × Bits) : Vector CodeEntry 257 :=
  v.setIfInBounds c.1.toNat (codeOf c.2)

/-- The codes of a list of leaves recorded one after the other. -/
def State.withCodes (cs : List (Sym × Bits)) (s : State) : State := { s with code := cs.foldl setCode s.code }

theorem withCodes_append (cs ds : List (Sym × Bits)) (s : State) :
    s.withCodes (cs ++ ds) = (s.withCodes cs).withCodes ds := by
  simp only [State.withCodes, List.foldl_append]

theorem recordCode_eq {sym : Sym} {path : Bits} (hs : sym.toNat ≤ 256) (hp : path.length ≤ 256) (s : State) :
    recordCode sym path s = .next (s.withCodes [(sym, path)]) := by
  have fits : sym.toNat < Config.nsym ∧ path.length ≤ Config.maxLen := ⟨Nat.lt_succ_of_le hs, hp⟩
  simp only [recordCode, if_pos fits]
  rfl

theorem codeAt_withCodes_singleton (s : State) (c : Sym × Bits) {k : Nat} (hk : k < 257) :
    (s.withCodes [c]).codeAt k = if c.1.toNat = k then codeOf c.2 else s.codeAt k := by
  simp only [State.codeAt, State.withCodes, List.foldl_cons, List.foldl_nil, setCode, Vector.getElem?_setIfInBounds]
  by_cases h : c.1.toNat = k
  · simp [h, hk]
  · simp [h]

theorem codeAt_withCodes_of_not_mem {cs : List (Sym × Bits)} {s : State} {k : Nat} (hk : k < 257)
    (h : ∀ c ∈ cs, c.1.toNat ≠ k) : (s.withCodes cs).codeAt k = s.codeAt k := by
  induction cs generalizing s with
  | nil => rfl
  | cons c cs ih =>
    have tail := ih (s := s.withCodes [c]) fun d hd => h d (List.mem_cons_of_mem _ hd)
    rw [codeAt_withCodes_singleton s c hk, if_neg (h c List.mem_cons_self)] at tail
    exact tail

theorem codeAt_withCodes_of_mem {cs : List (Sym × Bits)} {s : State} {c : Sym × Bits} (hn : (cs.map Prod.fst).Nodup)
    (hc : c ∈ cs) (hk : c.1.toNat < 257) : (s.withCodes cs).codeAt c.1.toNat = codeOf c.2 := by
  induction cs generalizing s with
  | nil => cases hc
  | cons d cs ih =>
    obtain ⟨hd, hn⟩ := List.nodup_cons.1 hn
    rcases List.mem_cons.1 hc with rfl | hc
    · have tail := codeAt_withCodes_of_not_mem (s := s.withCodes [c]) (cs := cs) hk fun e he heq =>
        hd (List.mem_map.2 ⟨e, he, BitVec.eq_of_toNat_eq heq⟩)
      rw [codeAt_withCodes_singleton s c hk, if_pos rfl] at tail
      exact tail
    · exact ih (s := s.withCodes [d]) hn hc

/-- GENCODE's walk records the codes of the tree below a node, left to right (R150, R151). -/
theorem codeWalk_eq {s t : State} {i : Idx} {T : HTree} {is : List Nat} (h : s.Spans i T is) (hn : t.node = s.node)
    (ha : t.nalloc = s.nalloc) (hsyms : ∀ x ∈ T.syms, x.toNat ≤ 256) {path : Bits} (hp : path.length + T.depth ≤ 256)
    {depth : Nat} (hd : T.depth < depth) : codeWalk depth i path t = .next (t.withCodes (T.codes path)) := by
  induction h generalizing t path depth with
  | leaf he hk =>
    obtain ⟨depth, rfl⟩ := Nat.exists_eq_add_one.2 hd
    simp only [codeWalk, readNode_congr hn ha, he, hk]
    exact recordCode_eq (hsyms _ (by simp [HTree.syms])) hp t
  | @node i e l r ls rs he hk _ _ ihl ihr =>
    simp only [HTree.depth] at hd hp
    obtain ⟨depth, rfl⟩ := Nat.exists_eq_add_one.2 (Nat.zero_lt_of_lt hd)
    simp only [HTree.syms, List.mem_append] at hsyms
    simp only [codeWalk, readNode_congr hn ha, he, hk, HTree.codes, withCodes_append]
    have left := ihl hn ha (fun x hx => hsyms x (.inl hx)) (path := path ++ [false]) (depth := depth)
      (by rw [List.length_append, List.length_singleton]; omega) (by omega)
    rw [left, andThen_next]
    exact ihr (t := t.withCodes (l.codes (path ++ [false]))) hn ha (fun x hx => hsyms x (.inr hx))
      (by rw [List.length_append, List.length_singleton]; omega) (by omega)

/-! ### Trees that BUILD makes -/

/-- R37, R137, as `State.builtOk` has it, of the tree `T`. -/
structure State.HoldsBuilt (s : State) (T : HTree) : Prop where
  tree     : s.tree = some T
  three_le : 3 ≤ T.size
  syms_le  : ∀ x ∈ T.syms, x.toNat ≤ 256
  nodup    : T.syms.Nodup
  sentinel : (256 : Sym) ∈ T.syms
  weights  : s.weightsOk = true

theorem builtOk_iff {s : State} : s.builtOk = true ↔ ∃ T, s.HoldsBuilt T := by
  unfold State.builtOk
  constructor
  · intro h
    split at h
    · cases h
    next T hT =>
      simp only [Bool.and_eq_true, decide_eq_true_eq, List.all_eq_true, List.contains_iff_mem] at h
      obtain ⟨⟨⟨⟨hsize, hle⟩, hn⟩, hmem⟩, hw⟩ := h
      exact ⟨T, hT, hsize, hle, hn, hmem, hw⟩
  · rintro ⟨T, hT, hsize, hle, hn, hmem, hw⟩
    simp only [hT, Bool.and_eq_true, decide_eq_true_eq, List.all_eq_true, List.contains_iff_mem]
    exact ⟨⟨⟨⟨hsize, hle⟩, hn⟩, hmem⟩, hw⟩

/-- The state's `CODE` holds the codes of the tree `T` and no other (R40, R151). -/
structure State.HoldsCodes (s : State) (T : HTree) : Prop where
  present : ∀ c ∈ T.codes [], s.codeAt c.1.toNat = codeOf c.2
  absent  : ∀ k < 257, (∀ c ∈ T.codes [], c.1.toNat ≠ k) → (s.codeAt k).valid = false

theorem lookup_of_mem {cs : List (Sym × Bits)} (hn : (cs.map Prod.fst).Nodup) {c : Sym × Bits} (hc : c ∈ cs) :
    cs.lookup c.1 = some c.2 := by
  induction cs with
  | nil => cases hc
  | cons d cs ih =>
    obtain ⟨hd, hn⟩ := List.nodup_cons.1 hn
    rcases List.mem_cons.1 hc with rfl | hc
    · exact List.lookup_cons_self
    · have ne : c.1 ≠ d.1 := fun h => hd (h ▸ List.mem_map_of_mem hc)
      rw [List.lookup_cons, beq_eq_false_iff_ne.2 ne]
      exact ih hn hc

theorem lookup_eq_none {cs : List (Sym × Bits)} {x : Sym} (h : ∀ c ∈ cs, c.1 ≠ x) : cs.lookup x = none :=
  List.lookup_eq_none_iff.2 fun c hc => bne_iff_ne.2 (h c hc).symm

theorem codesOk_iff {s : State} {T : HTree} (hT : s.tree = some T) (hn : T.syms.Nodup)
    (hle : ∀ x ∈ T.syms, x.toNat ≤ 256) : s.codesOk = true ↔ s.HoldsCodes T := by
  have small {k : Nat} (hk : k < 257) : (BitVec.ofNat 9 k).toNat = k := by
    rw [BitVec.toNat_ofNat]; exact Nat.mod_eq_of_lt (by omega)
  have look {c : Sym × Bits} (hc : c ∈ T.codes []) : (T.codes []).lookup c.1 = some c.2 :=
    lookup_of_mem (T.codes_fst [] ▸ hn) hc
  have look_none {k : Nat} (hk : k < 257) (h : ∀ c ∈ T.codes [], c.1.toNat ≠ k) :
      (T.codes []).lookup (BitVec.ofNat 9 k) = none :=
    lookup_eq_none fun c hc heq => h c hc (heq ▸ small hk)
  unfold State.codesOk
  simp only [hT, List.all_eq_true, List.mem_range]
  constructor
  · intro h
    constructor
    · intro c hc
      have hk := h c.1.toNat (Nat.lt_succ_of_le (hle c.1 (HTree.mem_syms_of_mem_codes hc)))
      rw [BitVec.ofNat_toNat, BitVec.setWidth_eq, look hc] at hk
      exact eq_of_beq hk
    · intro k hk hno
      simpa [look_none hk hno] using h k hk
  · rintro ⟨present, absent⟩ k hk
    by_cases hc : ∃ c ∈ T.codes [], c.1.toNat = k
    · obtain ⟨c, hc, rfl⟩ := hc
      rw [BitVec.ofNat_toNat, BitVec.setWidth_eq, look hc]
      exact beq_iff_eq.2 (present c hc)
    · have hno : ∀ c ∈ T.codes [], c.1.toNat ≠ k := fun c hc' heq => hc ⟨c, hc', heq⟩
      simp [look_none hk hno, absent k hk hno]

/-! ### GENCODE -/

/-- GENCODE on a tree of the symbols 0 to 256 completes: the codes of the tree are recorded in a table without any (R150). -/
theorem execGencode_eq {s : State} {T : HTree} (hr : s.status.faulted = false) (hv : s.status.treeValid = true)
    (hb : s.status.treeBuilt = true) (hT : s.tree = some T) (hle : ∀ x ∈ T.syms, x.toNat ≤ 256)
    (hd : T.depth ≤ 256) :
    execGencode s = .next (s.invalidateCode.dropCodes.withCodes (T.codes [])).validateCode.freeScratch := by
  obtain ⟨is, hs, hdepth⟩ := spans_of_subtree hT
  have walk : codeWalk Config.nodeCap s.root [] s.invalidateCode.dropCodes =
      .next (s.invalidateCode.dropCodes.withCodes (T.codes [])) :=
    codeWalk_eq (t := s.invalidateCode.dropCodes) hs rfl rfl hle (path := []) (by simpa using hd) hdepth
  simp only [execGencode, unlessFaulted_ready hr, hv, hb, Bool.and_self, requireFlags_true, walk, andThen_next,
    releaseScratch_next]

/-- What GENCODE leaves in `CODE` (R40, R151). -/
theorem holdsCodes_withCodes {s : State} {T : HTree} (hn : T.syms.Nodup) (hle : ∀ x ∈ T.syms, x.toNat ≤ 256) :
    (s.dropCodes.withCodes (T.codes [])).HoldsCodes T where
  present := fun c hc => codeAt_withCodes_of_mem (T.codes_fst [] ▸ hn) hc
    (Nat.lt_succ_of_le (hle c.1 (HTree.mem_syms_of_mem_codes hc)))
  absent := fun k hk hno => by rw [codeAt_withCodes_of_not_mem hk hno, codeAt_dropCodes]

/-- GENCODE on a tree that BUILD made (R152 to R155). -/
theorem execGencode_built {s : State} {T : HTree} (hr : s.status.faulted = false) (hv : s.status.treeValid = true)
    (hb : s.status.treeBuilt = true) (hT : s.HoldsBuilt T) :
    ∃ t, execGencode s = .next t ∧ t.HoldsCodes T := by
  refine ⟨_, execGencode_eq hr hv hb hT.tree hT.syms_le (HTree.depth_le_of_syms hT.nodup hT.syms_le), ?_⟩
  obtain ⟨present, absent⟩ := holdsCodes_withCodes (s := s.invalidateCode) hT.nodup hT.syms_le
  exact ⟨present, absent⟩

/-! ### Code lengths -/

theorem codeOf_len {p : Bits} (hp : p.length ≤ 256) : (codeOf p).len.toNat = p.length := by
  rw [codeOf, BitVec.toNat_ofNat]
  exact Nat.mod_eq_of_lt (by omega)

theorem codeOf_val_lt {p : Bits} (hp : p.length ≤ 256) : (codeOf p).val.toNat < 2 ^ p.length := by
  have fits : intOf p < 2 ^ 256 := lt_of_lt_of_le (intOf_lt p) (Nat.pow_le_pow_right (by norm_num) hp)
  rw [codeOf, BitVec.toNat_ofNat, Nat.mod_eq_of_lt fits]
  exact intOf_lt p

/-- A valid entry of the table is the code of a leaf. -/
theorem State.HoldsCodes.of_valid {s : State} {T : HTree} (h : s.HoldsCodes T) {k : Nat} (hk : k < 257)
    (hv : (s.codeAt k).valid = true) : ∃ c ∈ T.codes [], c.1.toNat = k ∧ s.codeAt k = codeOf c.2 := by
  by_contra hno
  have absent := h.absent k hk fun c hc heq => hno ⟨c, hc, heq, heq ▸ h.present c hc⟩
  rw [hv] at absent
  cases absent

/-- The length of a code of a built tree (R153). -/
theorem State.HoldsBuilt.length_of_mem_codes {s : State} {T : HTree} (h : s.HoldsBuilt T) {c : Sym × Bits}
    (hc : c ∈ T.codes []) : 1 ≤ c.2.length ∧ c.2.length ≤ 256 := by
  have depth := HTree.depth_le_of_syms h.nodup h.syms_le
  have long := (HTree.length_of_mem_codes hc).2
  rw [List.length_nil, Nat.zero_add] at long
  exact ⟨HTree.length_pos_of_mem_codes h.three_le hc, long.trans depth⟩

/-- What entry `k` of the table adds to Kraft's sum, in units of `2^(-256)` (R155). -/
def State.kraftTerm (s : State) (k : Nat) : Nat :=
  if (s.codeAt k).valid then 2 ^ (256 - (s.codeAt k).len.toNat) else 0

/-- Kraft's sum over the table is the one over the tree (R155). -/
theorem State.HoldsCodes.kraft {s t : State} {T : HTree} (hT : s.HoldsBuilt T) (h : t.HoldsCodes T) :
    ((List.range 257).map t.kraftTerm).sum = 2 ^ 256 := by
  have keys : ((T.syms.map BitVec.toNat)).Nodup := hT.nodup.map BitVec.toNat_injective
  have terms : (T.syms.map BitVec.toNat).map t.kraftTerm = (T.codes []).map fun c => 2 ^ (256 - c.2.length) := by
    rw [← T.codes_fst [], List.map_map, List.map_map]
    refine List.map_congr_left fun c hc => ?_
    have len := codeOf_len (hT.length_of_mem_codes hc).2
    simp only [Function.comp_apply, State.kraftTerm, h.present c hc, len]
    rfl
  have sub : (T.syms.map BitVec.toNat).toFinset ⊆ (List.range 257).toFinset := fun k hk => by
    obtain ⟨x, hx, rfl⟩ := List.mem_map.1 (List.mem_toFinset.1 hk)
    exact List.mem_toFinset.2 (List.mem_range.2 (Nat.lt_succ_of_le (hT.syms_le x hx)))
  have rest : ∀ k ∈ (List.range 257).toFinset, k ∉ (T.syms.map BitVec.toNat).toFinset → t.kraftTerm k = 0 := by
    intro k hk hno
    refine if_neg fun hv => hno ?_
    obtain ⟨c, hc, rfl, -⟩ := h.of_valid (List.mem_range.1 (List.mem_toFinset.1 hk)) hv
    exact List.mem_toFinset.2 (List.mem_map_of_mem (HTree.mem_syms_of_mem_codes hc))
  have depth := HTree.depth_le_of_syms hT.nodup hT.syms_le
  rw [← List.sum_toFinset _ List.nodup_range, ← Finset.sum_subset sub rest, List.sum_toFinset _ keys, terms,
    T.kraft (by simpa using depth), List.length_nil]

/-- Settles O26: every valid entry is the code of a leaf of the built tree, of which the sentinel is one. -/
theorem codeTableIsComplete : Obligations.CodeTableIsComplete := by
  intro s hr hv hb hok
  obtain ⟨T, hT⟩ := builtOk_iff.1 hok
  obtain ⟨t, ht, codes⟩ := execGencode_built hr hv hb hT
  refine ⟨t, ht, ?_, fun k hk hvk => ?_, codes.kraft hT⟩
  · have hmem := hT.sentinel
    rw [← T.codes_fst []] at hmem
    obtain ⟨c, hc, heq⟩ := List.mem_map.1 hmem
    have present := codes.present c hc
    rw [heq] at present
    exact present ▸ rfl
  · obtain ⟨c, hc, -, heq⟩ := codes.of_valid hk hvk
    obtain ⟨pos, le⟩ := hT.length_of_mem_codes hc
    rw [heq, codeOf_len le]
    exact ⟨pos, le, codeOf_val_lt le⟩

end Sys2Proof.Machine
end

section
/-! SUPPORT. BUILD makes one tree of the counted symbols (41_tree_builder.md R130 to R137). The invariant: the entries below `NALLOC`
are the nodes of disjoint trees, one for each index in `PQ`; placing a leaf adds a tree, a merge joins two. -/

namespace Sys2Proof.Machine

/-! ### The leaves -/

/-- BUILD's leaf of a symbol and its weight (R131). -/
def placeLeaf (s : State) (leaf : Nat × Nat) : State := addLeaf (BitVec.ofNat 9 leaf.1) leaf.2 s

theorem freq_toList (s : State) : s.freq.toList = (List.range 257).map s.freqAt := by
  refine List.ext_getElem (by simp) fun k hk _ => ?_
  have hk : k < 257 := by simpa using hk
  simp [State.freqAt, hk]

theorem emptyInput_eq (s : State) : emptyInput s = (List.range 256).all fun k => s.freqAt k == 0 := by
  have first : (List.range 257).take 256 = List.range 256 := by rw [List.take_range]; rfl
  rw [emptyInput, freq_toList, ← List.map_take, first, List.all_map]
  rfl

theorem addLeaves_eq_foldl (f : Nat → Nat) (k m : Nat) (s : State) :
    addLeaves k ((List.range' k m).map f) s =
      (((List.range' k m).filter fun k => decide (0 < f k)).map fun k => (k, f k)).foldl placeLeaf s := by
  induction m generalizing k s with
  | zero => rfl
  | succ m ih =>
    simp only [List.range'_succ, List.map_cons, addLeaves, ih]
    by_cases h : 0 < f k
    · simp [h, placeLeaf]
    · simp [h]

/-- BUILD places the leaves of `State.leafList`, in order (R131, R133). -/
theorem placeLeaves_eq_foldl (s : State) :
    placeLeaves s = s.leafList.foldl placeLeaf { s with nalloc := 0, pq := [] } := by
  have filler : addFiller { s with nalloc := 0, pq := [] } =
      (if (List.range 256).all fun k => s.freqAt k == 0 then [(0, 0)] else []).foldl placeLeaf
        { s with nalloc := 0, pq := [] } := by
    have same : emptyInput { s with nalloc := 0, pq := [] } = emptyInput s := rfl
    rw [addFiller, same, emptyInput_eq]
    split <;> rfl
  rw [placeLeaves, State.leafList, List.foldl_append, ← filler, freq_toList, List.range_eq_range', addLeaves_eq_foldl]

section LeafList

variable {s : State}

theorem mem_leafList {leaf : Nat × Nat} (h : leaf ∈ s.leafList) : leaf.1 ≤ 256 ∧ leaf.2 = s.freqAt leaf.1 := by
  rcases List.mem_append.1 h with h | h
  · split at h
    next hz =>
      cases List.mem_singleton.1 h
      have zero := List.all_eq_true.1 hz 0 (by decide)
      exact ⟨by decide, (eq_of_beq zero).symm⟩
    · cases h
  · obtain ⟨k, hk, rfl⟩ := List.mem_map.1 h
    exact ⟨Nat.le_of_lt_succ (List.mem_range.1 (List.mem_filter.1 hk).1), rfl⟩

theorem mem_leafList_of_pos {k : Nat} (hk : k ≤ 256) (h : 0 < s.freqAt k) : k ∈ s.leafList.map Prod.fst := by
  refine List.mem_map.2 ⟨(k, s.freqAt k), List.mem_append_right _ (List.mem_map.2 ⟨k, ?_, rfl⟩), rfl⟩
  exact List.mem_filter.2 ⟨List.mem_range.2 (Nat.lt_succ_of_le hk), decide_eq_true h⟩

/-- No symbol has two leaves: the filler's has none of its own (R133). -/
theorem nodup_leafList (s : State) : (s.leafList.map Prod.fst).Nodup := by
  have counted : (((List.range 257).filter fun k => decide (0 < s.freqAt k)).map
      fun k => (k, s.freqAt k)).map Prod.fst = (List.range 257).filter fun k => decide (0 < s.freqAt k) := by
    rw [List.map_map]
    exact List.map_id _
  rw [State.leafList, List.map_append, counted]
  have nodup := (List.nodup_range (n := 257)).filter fun k => decide (0 < s.freqAt k)
  split
  next hz =>
    have zero := eq_of_beq (List.all_eq_true.1 hz 0 (by decide))
    exact List.nodup_cons.2 ⟨by simp [zero], nodup⟩
  · exact nodup

theorem length_leafList_le (s : State) : s.leafList.length ≤ 257 := by
  have sub := List.subperm_of_subset (nodup_leafList s) (l₂ := List.range 257) fun k hk => by
    obtain ⟨leaf, hl, rfl⟩ := List.mem_map.1 hk
    exact List.mem_range.2 (Nat.lt_succ_of_le (mem_leafList hl).1)
  simpa using sub.length_le

/-- Beside the sentinel's leaf there is another one (R133). -/
theorem two_le_length_leafList (h : 0 < s.freqAt 256) : 2 ≤ s.leafList.length := by
  obtain ⟨k, hk, hmem⟩ : ∃ k < 256, k ∈ s.leafList.map Prod.fst := by
    by_cases hz : ((List.range 256).all fun k => s.freqAt k == 0) = true
    · exact ⟨0, by decide, by rw [State.leafList, if_pos hz]; simp⟩
    · simp only [List.all_eq_true, List.mem_range, beq_iff_eq, not_forall] at hz
      obtain ⟨k, hk, hpos⟩ := hz
      exact ⟨k, hk, mem_leafList_of_pos hk.le (Nat.pos_of_ne_zero hpos)⟩
  have sub := List.subperm_of_subset (l₁ := [k, 256]) (l₂ := s.leafList.map Prod.fst)
    (by simp; omega) (by simp only [List.cons_subset, List.nil_subset, and_true]; exact ⟨hmem, mem_leafList_of_pos le_rfl h⟩)
  simpa using sub.length_le

/-- The counts add to less than `2^(W_W)` (R136). -/
theorem sum_leafList_lt (h : ∀ k ≤ 256, s.freqAt k < 2 ^ s.cntW) :
    (s.leafList.map Prod.snd).sum < 2 ^ Config.weightW s.cntW := by
  have each : ∀ w ∈ s.leafList.map Prod.snd, w ≤ 2 ^ s.cntW := by
    intro w hw
    obtain ⟨leaf, hl, rfl⟩ := List.mem_map.1 hw
    obtain ⟨hle, heq⟩ := mem_leafList hl
    exact heq ▸ (h _ hle).le
  have total := List.sum_le_card_nsmul _ _ each
  rw [List.length_map, smul_eq_mul] at total
  have len := length_leafList_le s
  have pos : 0 < 2 ^ s.cntW := by positivity
  have wide : 2 ^ Config.weightW s.cntW = 512 * 2 ^ s.cntW := by rw [Config.weightW, pow_add]; ring
  nlinarith

end LeafList

/-! ### The forest -/

/-- A tree in the node array: its root's index, the tree, and the indices of its nodes. -/
structure Grown where
  root  : Idx
  tree  : HTree
  nodes : List Nat

/-- The symbols of a tree, as numbers. -/
def Grown.syms (g : Grown) : Multiset Nat := g.tree.syms.map BitVec.toNat

/-- An entry of `NODE`, if an internal node's, has allocated children and weighs what they do (R36, R37). -/
def State.EntryAdds (s : State) (e : NodeEntry) : Prop :=
  e.kind = .internal → e.left.toNat < s.nalloc.toNat ∧ e.right.toNat < s.nalloc.toNat ∧
    e.weight = (s.nodeAt e.left).weight + (s.nodeAt e.right).weight

/-- The entry a merge of two nodes writes (R134). -/
def State.mergeOf (s : State) (a b : Idx) : NodeEntry :=
  { kind := .internal, sym := 0, weight := (s.nodeAt a).weight + (s.nodeAt b).weight, left := a, right := b }

/-- The entries below `NALLOC` are the nodes of these trees, each the node of one; the trees' symbols are `syms`, the weights of their
roots add to `w`, and an internal node weighs what its children do (R134, R136). -/
structure State.Forest (s : State) (F : Multiset Grown) (syms : Multiset Nat) (w : Nat) : Prop where
  spans  : ∀ g ∈ F, s.Spans g.root g.tree g.nodes
  nodes  : (F.map fun g => (g.nodes : Multiset Nat)).sum = Multiset.range s.nalloc.toNat
  syms   : (F.map Grown.syms).sum = syms
  weight : (F.map fun g => (s.nodeAt g.root).weight).sum = w
  adds   : ∀ i : Idx, i.toNat < s.nalloc.toNat → s.EntryAdds (s.nodeAt i)

/-- The roots of the trees wait in `PQ`. -/
def State.Waits (s : State) (F : Multiset Grown) : Prop := F.map Grown.root = (s.pq : Multiset Idx)

theorem State.Spans.root_mem {s : State} {i : Idx} {T : HTree} {is : List Nat} (h : s.Spans i T is) : i.toNat ∈ is := by
  cases h <;> simp

theorem nodeAt_allocNode {s : State} (hn : s.nalloc.toNat < 513) (upd : NodeEntry → NodeEntry) (j : Idx) :
    (s.allocNode upd).nodeAt j = if j = s.nalloc then upd (s.nodeAt s.nalloc) else s.nodeAt j := by
  have set := nodeAt_setNode s s.nalloc j (upd (s.nodeAt s.nalloc))
  simp only [hn, and_true, eq_comm (a := s.nalloc)] at set
  exact set

namespace State.Forest

variable {s t : State} {F : Multiset Grown} {syms : Multiset Nat} {w : Nat}

theorem congr (h : s.Forest F syms w) (hn : t.node = s.node) (ha : t.nalloc = s.nalloc) : t.Forest F syms w := by
  have at_eq (i : Idx) : t.nodeAt i = s.nodeAt i := by simp only [State.nodeAt, hn]
  exact
    { spans := fun g hg => (h.spans g hg).congr fun j _ => readNode_congr hn ha j
      nodes := ha ▸ h.nodes
      syms := h.syms
      weight := by simp only [at_eq]; exact h.weight
      adds := by simp only [State.EntryAdds, at_eq, ha]; exact h.adds }

theorem root_lt (h : s.Forest F syms w) {g : Grown} (hg : g ∈ F) : g.root.toNat < s.nalloc.toNat :=
  ((h.spans g hg).lt _ (h.spans g hg).root_mem).1

/-! ### A new node -/

section Alloc

variable (h : s.Forest F syms w) (hn : s.nalloc.toNat < 513) (upd : NodeEntry → NodeEntry)

include hn

theorem nodeAt_allocNode_of_lt {j : Idx} (hj : j.toNat < s.nalloc.toNat) : (s.allocNode upd).nodeAt j = s.nodeAt j := by
  rw [nodeAt_allocNode hn, if_neg (by rintro rfl; omega)]

theorem nodeAt_allocNode_self : (s.allocNode upd).nodeAt s.nalloc = upd (s.nodeAt s.nalloc) := by
  rw [nodeAt_allocNode hn, if_pos rfl]

theorem readNode_allocNode_self : (s.allocNode upd).readNode s.nalloc = some (upd (s.nodeAt s.nalloc)) := by
  rw [readNode_allocNode hn, if_pos rfl]

include h

theorem spans_allocNode {g : Grown} (hg : g ∈ F) : (s.allocNode upd).Spans g.root g.tree g.nodes :=
  (h.spans g hg).congr fun j hj => by
    have := ((h.spans g hg).lt _ hj).1
    rw [readNode_allocNode hn, if_neg (by rintro rfl; omega)]

theorem weights_allocNode {G : Multiset Grown} (hG : ∀ g ∈ G, g ∈ F) :
    (G.map fun g => ((s.allocNode upd).nodeAt g.root).weight) = G.map fun g => (s.nodeAt g.root).weight :=
  Multiset.map_congr rfl fun g hg => by rw [nodeAt_allocNode_of_lt hn upd (h.root_lt (hG g hg))]

omit h in
theorem entryAdds_allocNode {e : NodeEntry} (he : s.EntryAdds e) : (s.allocNode upd).EntryAdds e := by
  intro hk
  obtain ⟨left, right, weight⟩ := he hk
  rw [nodeAt_allocNode_of_lt hn upd left, nodeAt_allocNode_of_lt hn upd right, allocNode_nalloc, toNat_succ_of_lt hn]
  exact ⟨by omega, by omega, weight⟩

/-- Weights add in the old nodes as before, and in the new one if they do there. -/
theorem adds_allocNode (hadds : s.EntryAdds (upd (s.nodeAt s.nalloc))) (i : Idx)
    (hi : i.toNat < (s.allocNode upd).nalloc.toNat) : (s.allocNode upd).EntryAdds ((s.allocNode upd).nodeAt i) := by
  rw [allocNode_nalloc, toNat_succ_of_lt hn] at hi
  by_cases hin : i = s.nalloc
  · rw [hin, nodeAt_allocNode_self hn]
    exact entryAdds_allocNode hn upd hadds
  · have lt : i.toNat < s.nalloc.toNat := by
      have : i.toNat ≠ s.nalloc.toNat := fun e => hin (BitVec.eq_of_toNat_eq e)
      omega
    rw [nodeAt_allocNode_of_lt hn upd lt]
    exact entryAdds_allocNode hn upd (h.adds i lt)

end Alloc

theorem range_succ (hn : s.nalloc.toNat < 513) :
    Multiset.range (s.nalloc + 1).toNat = s.nalloc.toNat ::ₘ Multiset.range s.nalloc.toNat := by
  rw [toNat_succ_of_lt hn, Multiset.range_succ]

/-- A leaf is a tree of its own (R131). -/
theorem addLeaf (h : s.Forest F syms w) (hn : s.nalloc.toNat < 513) (sym : Sym) (v : Nat) :
    (addLeaf sym v s).Forest (⟨s.nalloc, .leaf sym, [s.nalloc.toNat]⟩ ::ₘ F) (sym.toNat ::ₘ syms) (v + w) := by
  have alloc : (s.allocNode fun e => { e with kind := .leaf, sym := sym, weight := v }).Forest
      (⟨s.nalloc, .leaf sym, [s.nalloc.toNat]⟩ ::ₘ F) (sym.toNat ::ₘ syms) (v + w) :=
    { spans := fun g hg => by
        rcases Multiset.mem_cons.1 hg with rfl | hg
        · exact .leaf (readNode_allocNode_self hn _) rfl
        · exact h.spans_allocNode hn _ hg
      nodes := by
        rw [Multiset.map_cons, Multiset.sum_cons, h.nodes, allocNode_nalloc, range_succ hn]
        rfl
      syms := by
        rw [Multiset.map_cons, Multiset.sum_cons, h.syms]
        rfl
      weight := by
        rw [Multiset.map_cons, Multiset.sum_cons, h.weights_allocNode hn _ fun _ => id, h.weight, nodeAt_allocNode_self hn]
      adds := h.adds_allocNode hn _ nofun }
  exact alloc.congr rfl rfl

/-- A merge makes one tree of two (R134). -/
theorem addInternal {a b : Grown} (h : s.Forest (a ::ₘ b ::ₘ F) syms w) (hn : s.nalloc.toNat < 513) :
    (addInternal a.root b.root s).Forest
      (⟨s.nalloc, .node a.tree b.tree, s.nalloc.toNat :: (a.nodes ++ b.nodes)⟩ ::ₘ F) syms w := by
  have ha : a ∈ a ::ₘ b ::ₘ F := Multiset.mem_cons_self _ _
  have hb : b ∈ a ::ₘ b ::ₘ F := Multiset.mem_cons_of_mem (Multiset.mem_cons_self _ _)
  have alloc : (s.allocNode fun _ => s.mergeOf a.root b.root).Forest
      (⟨s.nalloc, .node a.tree b.tree, s.nalloc.toNat :: (a.nodes ++ b.nodes)⟩ ::ₘ F) syms w :=
    { spans := fun g hg => by
        rcases Multiset.mem_cons.1 hg with rfl | hg
        · exact .node (readNode_allocNode_self hn _) rfl (h.spans_allocNode hn _ ha) (h.spans_allocNode hn _ hb)
        · exact h.spans_allocNode hn _ (Multiset.mem_cons_of_mem (Multiset.mem_cons_of_mem hg))
      nodes := by
        have nodes := h.nodes
        simp only [Multiset.map_cons, Multiset.sum_cons] at nodes ⊢
        rw [allocNode_nalloc, range_succ hn, ← nodes, ← Multiset.cons_coe, ← Multiset.coe_add, Multiset.cons_add,
          add_assoc]
      syms := by
        have syms := h.syms
        simp only [Multiset.map_cons, Multiset.sum_cons] at syms ⊢
        rw [← syms, ← add_assoc]
        simp only [Grown.syms, HTree.syms, List.map_append, Multiset.coe_add]
      weight := by
        have weight := h.weight
        rw [Multiset.map_cons, Multiset.sum_cons, Multiset.map_cons, Multiset.sum_cons, ← add_assoc] at weight
        rw [Multiset.map_cons, Multiset.sum_cons, nodeAt_allocNode_self hn, h.weights_allocNode hn _ fun g hg =>
          Multiset.mem_cons_of_mem (Multiset.mem_cons_of_mem hg)]
        exact weight
      adds := h.adds_allocNode hn _ fun _ => ⟨h.root_lt ha, h.root_lt hb, rfl⟩ }
  exact alloc.congr rfl rfl

end State.Forest

/-! ### Placing and merging -/

section Build

variable {s : State} {F : Multiset Grown} {syms : Multiset Nat} {w : Nat}

theorem placeLeaves_forest {ls : List (Nat × Nat)} (h : s.Forest F syms w) (hw : s.Waits F)
    (hn : s.nalloc.toNat + ls.length ≤ 257) (hls : ∀ leaf ∈ ls, leaf.1 < 512) :
    ∃ F', (ls.foldl placeLeaf s).Forest F' (syms + (ls.map Prod.fst : Multiset Nat)) (w + (ls.map Prod.snd).sum) ∧
      (ls.foldl placeLeaf s).Waits F' ∧ (ls.foldl placeLeaf s).nalloc.toNat = s.nalloc.toNat + ls.length ∧
      (ls.foldl placeLeaf s).pq.length = s.pq.length + ls.length := by
  induction ls generalizing s F syms w with
  | nil => exact ⟨F, by simpa using h, hw, rfl, rfl⟩
  | cons leaf ls ih =>
    rw [List.length_cons] at hn
    have hlt : s.nalloc.toNat < 513 := by omega
    have succ := toNat_succ_of_lt hlt
    have small : (BitVec.ofNat 9 leaf.1).toNat = leaf.1 := by
      rw [BitVec.toNat_ofNat]
      exact Nat.mod_eq_of_lt (hls leaf List.mem_cons_self)
    have waits : (placeLeaf s leaf).Waits (⟨s.nalloc, .leaf (BitVec.ofNat 9 leaf.1), [s.nalloc.toNat]⟩ ::ₘ F) := by
      rw [State.Waits, Multiset.map_cons, hw, placeLeaf, addLeaf_pq, Multiset.cons_coe, Multiset.coe_eq_coe]
      exact (List.perm_append_singleton _ _).symm
    obtain ⟨F', forest, hw', hn', hq'⟩ := ih (s := placeLeaf s leaf) (h.addLeaf hlt (BitVec.ofNat 9 leaf.1) leaf.2) waits
      (by rw [placeLeaf, addLeaf_nalloc, succ]; omega) fun l hl => hls l (List.mem_cons_of_mem _ hl)
    refine ⟨F', ?_, hw', ?_, ?_⟩
    · rw [List.map_cons, List.map_cons, List.sum_cons, ← Multiset.cons_coe, Multiset.add_cons, ← Multiset.cons_add,
        ← add_assoc, add_comm w]
      exact small ▸ forest
    · rw [List.foldl_cons, hn', placeLeaf, addLeaf_nalloc, succ, List.length_cons]
      omega
    · rw [List.foldl_cons, hq', placeLeaf, addLeaf_pq, List.length_append, List.length_singleton, List.length_cons]
      omega

/-- From a `PQ` that is not empty `removeMin` takes the root of one of the trees (R132). -/
theorem removeMin_takes (hw : s.Waits F) (hne : s.pq ≠ []) :
    ∃ g F', F = g ::ₘ F' ∧ s.removeMin = some (g.root, { s with pq := s.pq.erase g.root }) ∧
      ({ s with pq := s.pq.erase g.root } : State).Waits F' := by
  obtain ⟨i, hi⟩ := leastOf_isSome s hne
  have mem : i ∈ F.map Grown.root := hw ▸ Multiset.mem_coe.2 (leastOf_mem s hi)
  obtain ⟨g, hg, rfl⟩ := Multiset.mem_map.1 mem
  obtain ⟨F', rfl⟩ := Multiset.exists_cons_of_mem hg
  refine ⟨g, F', rfl, removeMin_of_leastOf hi, ?_⟩
  rw [State.Waits, Multiset.map_cons] at hw
  rw [State.Waits, ← Multiset.coe_erase, ← hw, Multiset.erase_cons_head]

/-- Every merge takes two trees and leaves one: the loop ends with one tree before its bound (R130, R134). -/
theorem mergeLoop_forest {passes : Nat} (h : s.Forest F syms w) (hw : s.Waits F)
    (hroom : s.nalloc.toNat + s.pq.length ≤ 514) (hpos : 0 < s.pq.length) (hp : s.pq.length ≤ passes) :
    ∃ t g, mergeLoop passes s = .next t ∧ t.Forest {g} syms w ∧ t.Waits {g} := by
  induction passes generalizing s F with
  | zero => omega
  | succ passes ih =>
    unfold mergeLoop
    split
    next one =>
      have card : F.card = 1 := by
        have := congrArg Multiset.card hw
        rw [Multiset.card_map, Multiset.coe_card] at this
        omega
      obtain ⟨g, rfl⟩ := Multiset.card_eq_one.1 card
      exact ⟨s, g, rfl, h, hw⟩
    next more =>
      obtain ⟨a, F₁, rfl, ha, hw₁⟩ := removeMin_takes hw (List.ne_nil_of_length_pos hpos)
      have len₁ := removeMin_pq_length ha
      rw [ha]
      dsimp only at len₁ ⊢
      obtain ⟨b, F₂, rfl, hb, hw₂⟩ := removeMin_takes hw₁ (List.ne_nil_of_length_pos (by dsimp only; omega))
      have len₂ := removeMin_pq_length hb
      rw [hb]
      dsimp only at len₂ ⊢
      generalize ht : ({ s with pq := (s.pq.erase a.root).erase b.root } : State) = t at hw₂
      have forest : t.Forest (a ::ₘ b ::ₘ F₂) syms w := by rw [← ht]; exact h.congr rfl rfl
      have nalloc : t.nalloc = s.nalloc := by rw [← ht]
      have hq : t.pq.length + 2 = s.pq.length := by rw [← ht]; dsimp only; omega
      have hlt : t.nalloc.toNat < 513 := by rw [nalloc]; omega
      refine ih (forest.addInternal hlt) ?_ ?_ ?_ ?_
      · rw [State.Waits, Multiset.map_cons, hw₂, addInternal_pq, Multiset.cons_coe, Multiset.coe_eq_coe]
        exact (List.perm_append_singleton _ _).symm
      · rw [addInternal_nalloc, toNat_succ_of_lt hlt, nalloc, addInternal_pq, List.length_append, List.length_singleton]
        omega
      · rw [addInternal_pq, List.length_append, List.length_singleton]
        omega
      · rw [addInternal_pq, List.length_append, List.length_singleton]
        omega

/-- The last index in `PQ` is the root (R135). -/
theorem takeRoot_forest {g : Grown} (h : s.Forest {g} syms w) (hw : s.Waits {g}) :
    ∃ t, takeRoot s = .next t ∧ t.Forest {g} syms w ∧ t.root = g.root := by
  have hne : s.pq ≠ [] := by
    intro hnil
    rw [State.Waits, hnil] at hw
    simp at hw
  obtain ⟨g', F', hF, hr, -⟩ := removeMin_takes hw hne
  obtain ⟨rfl, -⟩ : g = g' ∧ _ := Multiset.singleton_eq_cons_iff _ |>.1 hF
  simp only [takeRoot, hr]
  exact ⟨_, rfl, h.congr rfl rfl, rfl⟩

/-- BUILD completes with one tree of the leaves it placed (R130, R133, R136). -/
theorem execBuild_forest (hr : s.status.faulted = false) (hv : s.status.freqValid = true) (hs : 0 < s.freqAt 256) :
    ∃ t g, execBuild s = .next t ∧
      t.Forest {g} (s.leafList.map Prod.fst : Multiset Nat) (s.leafList.map Prod.snd).sum ∧ t.root = g.root := by
  have empty : ({ s.invalidateTree with nalloc := 0, pq := [] } : State).Forest 0 0 0 :=
    { spans := by simp, nodes := rfl, syms := rfl, weight := rfl, adds := by simp }
  have leaves : s.invalidateTree.leafList = s.leafList := rfl
  have few := length_leafList_le s
  have two := two_le_length_leafList hs
  obtain ⟨F, forest, hw, hn, hq⟩ := placeLeaves_forest (ls := s.leafList) empty rfl (by simpa using few) fun leaf hl => by
    have := (mem_leafList hl).1
    omega
  rw [← leaves, ← placeLeaves_eq_foldl, zero_add, zero_add, leaves] at forest
  rw [← leaves, ← placeLeaves_eq_foldl] at hw hn hq
  rw [leaves] at hn hq
  have hn : (placeLeaves s.invalidateTree).nalloc.toNat = s.leafList.length := by simpa using hn
  have hq : (placeLeaves s.invalidateTree).pq.length = s.leafList.length := by simpa using hq
  obtain ⟨t, g, ht, forest, hw⟩ := mergeLoop_forest (passes := Config.nsym.succ) forest hw (by omega) (by omega)
    (by simp only [Config.nsym]; omega)
  obtain ⟨u, hu, forest, hroot⟩ := takeRoot_forest forest hw
  refine ⟨u.freeScratch, g, ?_, forest.congr rfl rfl, hroot⟩
  simp only [execBuild, unlessFaulted_ready hr, hv, requireFlags_true, ht, andThen_next, hu, releaseScratch_next]

end Build

/-! ### The tree that is left -/

section Tree

variable {s : State} {g : Grown} {syms : Multiset Nat} {w : Nat} (h : s.Forest {g} syms w) (hroot : s.root = g.root)

include h

theorem State.Forest.nodes_nodup : g.nodes.Nodup ∧ g.nodes.length = s.nalloc.toNat := by
  have nodes := h.nodes
  rw [Multiset.map_singleton, Multiset.sum_singleton] at nodes
  constructor
  · rw [← Multiset.coe_nodup, nodes]
    exact Multiset.nodup_range _
  · simpa using congrArg Multiset.card nodes

theorem State.Forest.weightsOk : s.weightsOk = true := by
  refine List.all_eq_true.2 fun k hk => ?_
  have hk : (BitVec.ofNat 10 k).toNat < s.nalloc.toNat :=
    lt_of_le_of_lt (by rw [BitVec.toNat_ofNat]; exact Nat.mod_le _ _) (List.mem_range.1 hk)
  have adds := h.adds _ hk
  split
  · rfl
  next heq =>
    rw [heq] at adds
    exact beq_iff_eq.2 (adds rfl).2.2

include hroot

theorem State.Forest.treeOk : s.treeOk = true :=
  treeOk_iff.2 ⟨g.tree, g.nodes, hroot ▸ h.spans g (Multiset.mem_singleton_self g), h.nodes_nodup⟩

theorem State.Forest.tree_eq : s.tree = some g.tree := by
  have spans := h.spans g (Multiset.mem_singleton_self g)
  rw [State.tree, hroot]
  exact spans.subtree_eq (spans.depth_lt_nodeCap h.nodes_nodup.1)

end Tree

/-- BUILD completes with one tree of the counted symbols (R37, R136, R137). -/
theorem execBuild_built {s : State} (hr : s.status.faulted = false) (hv : s.status.freqValid = true)
    (hs : 0 < s.freqAt 256) :
    ∃ t T, execBuild s = .next t ∧ t.treeOk = true ∧ t.HoldsBuilt T ∧
      (T.syms.map BitVec.toNat).Perm (s.leafList.map Prod.fst) ∧
      (t.nodeAt t.root).weight = (s.leafList.map Prod.snd).sum := by
  obtain ⟨t, g, ht, forest, hroot⟩ := execBuild_forest hr hv hs
  have perm : (g.tree.syms.map BitVec.toNat).Perm (s.leafList.map Prod.fst) := by
    have syms := forest.syms
    rw [Multiset.map_singleton, Multiset.sum_singleton] at syms
    exact Multiset.coe_eq_coe.1 syms
  have mem {x : Sym} : x ∈ g.tree.syms ↔ x.toNat ∈ s.leafList.map Prod.fst := by
    rw [← perm.mem_iff, List.mem_map_of_injective BitVec.toNat_injective]
  have weight : (t.nodeAt t.root).weight = (s.leafList.map Prod.snd).sum := by
    have weight := forest.weight
    rwa [Multiset.map_singleton, Multiset.sum_singleton, ← hroot] at weight
  refine ⟨t, g.tree, ht, forest.treeOk hroot, ?_, perm, weight⟩
  exact
    { tree := forest.tree_eq hroot
      three_le := by
        have leaves := perm.length_eq
        rw [List.length_map, List.length_map] at leaves
        have two := two_le_length_leafList hs
        have size := g.tree.size_eq_syms
        omega
      syms_le := fun x hx => by
        obtain ⟨leaf, hl, heq⟩ := List.mem_map.1 (mem.1 hx)
        exact heq ▸ (mem_leafList hl).1
      nodup := List.Nodup.of_map _ (perm.nodup_iff.2 (nodup_leafList s))
      sentinel := mem.2 (mem_leafList_of_pos le_rfl hs)
      weights := forest.weightsOk }

/-- R35. -/
theorem freqOk_iff {s : State} : s.freqOk = true ↔ s.freqAt 256 = 1 ∧ ∀ k ≤ 256, s.freqAt k < 2 ^ s.cntW := by
  unfold State.freqOk
  simp only [Bool.and_eq_true, beq_iff_eq, List.all_eq_true, List.mem_range, decide_eq_true_eq, Nat.lt_succ_iff]

/-- Settles O22: the tree that is left when `PQ` holds one index. -/
theorem builtTreeIsWellFormed : Obligations.BuiltTreeIsWellFormed := by
  intro s hr hv hok
  obtain ⟨sentinel, fits⟩ := freqOk_iff.1 hok
  obtain ⟨t, T, ht, tree, built, perm, weight⟩ := execBuild_built hr hv (by omega)
  exact ⟨t, T, ht, tree, builtOk_iff.2 ⟨T, built⟩, built.tree, perm, weight, weight ▸ sum_leafList_lt fits⟩

end Sys2Proof.Machine
end

section
/-! SUPPORT. The validity flags (`State.flagsOk`) through every command: those whose cells an operation writes are cleared at its start
and set again when it has ended (10_state.md R31, R35, R37, R40, 46_control.md R205). -/

namespace Sys2Proof.Machine

/-- Every flag that is set is true to what it vouches for. -/
structure State.Sound (s : State) : Prop where
  freq  : s.status.freqValid = true → s.freqOk = true
  tree  : s.status.treeValid = true → s.treeOk = true
  built : s.status.treeBuilt = true → s.builtOk = true
  code  : s.status.codeValid = true → s.status.treeBuilt = true ∧ s.codesOk = true

theorem flagsOk_iff {s : State} : s.flagsOk = true ↔ s.Sound := by
  unfold State.flagsOk
  simp only [Bool.and_eq_true, Bool.or_eq_true, Bool.not_eq_true', ← Bool.not_eq_true, ← imp_iff_not_or]
  exact ⟨fun ⟨⟨⟨hf, ht⟩, hb⟩, hc⟩ => ⟨hf, ht, hb, hc⟩, fun ⟨hf, ht, hb, hc⟩ => ⟨⟨⟨hf, ht⟩, hb⟩, hc⟩⟩

/-- The invariant between the steps of a macro: the registers agree, the flags are true, no token is awaited. -/
structure State.Settled (s : State) : Prop where
  resting : s.Resting
  sound   : s.Sound
  idle    : s.activity = .idle

theorem ok_iff {s : State} : s.ok = true ↔ s.Settled ∧ s.seq = [] := by
  simp only [State.ok, State.atRest, Bool.and_eq_true, registersOk_iff, flagsOk_iff, beq_iff_eq]
  constructor
  · rintro ⟨⟨agrees, sound⟩, idle, seq⟩
    refine ⟨⟨agrees.resolve_right fun h => ?_, sound, idle⟩, seq⟩
    exact absurd (h.tree.symm.trans idle) nofun
  · rintro ⟨⟨resting, sound, idle⟩, seq⟩
    exact ⟨⟨.inl resting, sound⟩, idle, seq⟩

/-! ### A missing prerequisite (R204) -/

section Missing

variable {s : State} (hr : s.status.faulted = false)

include hr

theorem execBuild_missing (hc : s.status.freqValid = false) : execBuild s = .next (raise .sequence s) := by
  rw [execBuild, unlessFaulted_ready hr, hc, requireFlags_false]

theorem execGencode_missing (hc : (s.status.treeValid && s.status.treeBuilt) = false) :
    execGencode s = .next (raise .sequence s) := by
  rw [execGencode, unlessFaulted_ready hr, hc, requireFlags_false]

theorem execWrhdr_missing (hc : s.status.treeValid = false) : execWrhdr s = .next (raise .sequence s) := by
  rw [execWrhdr, unlessFaulted_ready hr, hc, requireFlags_false]

theorem execEncode_missing (hc : s.status.codeValid = false) : execEncode s = .next (raise .sequence s) := by
  rw [execEncode, unlessFaulted_ready hr, hc, requireFlags_false]

theorem execDecode_missing (hc : s.status.treeValid = false) : execDecode s = .next (raise .sequence s) := by
  rw [execDecode, unlessFaulted_ready hr, hc, requireFlags_false]

end Missing

/-! ### The steps of a macro as commands -/

/-- The command a step of the sequencer stands for (R109). -/
def MacroStep.instr : MacroStep → Instr
  | .count => .count
  | .build => .build
  | .gencode => .gencode
  | .wrmagic => .wrmagic
  | .wrhdr => .wrhdr
  | .encode => .encode
  | .rdmagic => .rdmagic
  | .rdhdr => .rdhdr
  | .decode => .decode

theorem exec_instr (m : MacroStep) (s : State) : exec m.instr s = runStep m s := by
  cases m <;> rfl

theorem instr_ne_clear (m : MacroStep) : m.instr ≠ .clear := by
  cases m <;> decide

theorem runStep_allows (m : MacroStep) (s : State) : AllNext ((effectsOf m.instr).Allows s) (runStep m s) :=
  exec_instr m s ▸ exec_allows (instr_ne_clear m) s

section Sound

variable {s t : State}

/-- The flags are true to the same cells. -/
theorem State.Sound.congr (h : s.Sound) (hst : ∀ f : Flag, f.of t.status = f.of s.status) (hc : t.cntW = s.cntW)
    (hroot : t.root = s.root) (hnalloc : t.nalloc = s.nalloc) (hfreq : t.freq = s.freq) (hnode : t.node = s.node)
    (hcode : t.code = s.code) : t.Sound where
  freq := fun hv => (freqOk_congr hfreq hc).trans (h.freq ((hst .freqValid).symm.trans hv))
  tree := fun hv => (treeOk_congr hnode hnalloc hroot).trans (h.tree ((hst .treeValid).symm.trans hv))
  built := fun hv => (builtOk_congr hnode hnalloc hroot).trans (h.built ((hst .treeBuilt).symm.trans hv))
  code := fun hv => by
    obtain ⟨hb, hok⟩ := h.code ((hst .codeValid).symm.trans hv)
    exact ⟨(hst .treeBuilt).trans hb, (codesOk_congr hnode hnalloc hroot hcode).trans hok⟩

/-- An operation that writes none of the flags' cells, and no flag, keeps them true. -/
theorem State.Sound.of_allows {E : Effects} (h : s.Sound) (hst : E.Allows s t) (hsets : E.sets = [])
    (hclears : E.clears = [])
    (hw : ∀ c ∈ [Cell.root, .nalloc, .freq, .node, .code], c ∉ E.writes) : t.Sound := by
  refine h.congr (fun f => Bool.eq_iff_iff.2 ⟨fun hf => ?_, fun hf => ?_⟩) hst.cntW (hst.same .root (hw _ (by simp)))
    (hst.same .nalloc (hw _ (by simp))) (hst.same .freq (hw _ (by simp))) (hst.same .node (hw _ (by simp)))
    (hst.same .code (hw _ (by simp)))
  · exact (hst.sets f hf).resolve_right (by simp [hsets])
  · exact (hst.clears f hf).resolve_right (by simp [hclears])

theorem State.Sound.raise (h : s.Sound) (e : ErrKind) : (raise e s).Sound :=
  h.congr (fun f => by cases f <;> rfl) rfl rfl rfl rfl rfl rfl

theorem State.Sound.freeScratch (h : s.Sound) : s.freeScratch.Sound :=
  h.congr (fun _ => rfl) rfl rfl rfl rfl rfl rfl

/-- The freed scratch registers are read by no flag. -/
theorem sound_of_freeScratch (h : s.freeScratch.Sound) : s.Sound :=
  h.congr (fun _ => rfl) rfl rfl rfl rfl rfl rfl

/-- With every flag of the tree and of the codes clear only the counts are vouched for. -/
theorem sound_of_freq (hv : t.status.treeValid = false) (hb : t.status.treeBuilt = false)
    (hc : t.status.codeValid = false) (hf : t.status.freqValid = true → t.freqOk = true) : t.Sound :=
  ⟨hf, by simp [hv], by simp [hb], by simp [hc]⟩

/-! ### frequency_counter -/

/-- While COUNT counts, every count fits `CNT_W` bits (R120, R123). -/
theorem countLoop_freqOk (passes : Nat) (hv : s.status.freqValid = false) (hc : 1 ≤ s.cntW)
    (hf : ∀ k ≤ 256, s.freqAt k < 2 ^ s.cntW) :
    AllNext (fun t => t.status.freqValid = true → t.freqOk = true) (countLoop passes s) := by
  induction passes generalizing s with
  | zero => exact allNext_fault _
  | succ passes ih =>
    unfold countLoop
    cases hr : srcRead 8 s with
    | refused r => exact allNext_refused r
    | noData t =>
      obtain ⟨src, -, -, -, -, rfl⟩ := srcRead_eq_noData hr
      refine allNext_next.2 fun _ => freqOk_iff.2 ⟨(freqAt_setFreq _ _ _ _).trans (if_pos ⟨rfl, by decide⟩), ?_⟩
      intro k hk
      refine (freqAt_setFreq _ _ _ _).trans_lt ?_
      split
      · exact Nat.one_lt_two_pow (Nat.one_le_iff_ne_zero.1 hc)
      · exact hf k hk
    | data v t =>
      obtain ⟨src, -, -, -, -, -, -, rfl⟩ := srcRead_eq_data hr
      dsimp only
      split
      next room =>
        refine ih hv hc fun k hk => (freqAt_setFreq _ _ _ _).trans_lt ?_
        split
        · exact Nat.add_lt_of_lt_sub room
        · exact hf k hk
      · exact allNext_next.2 fun h => absurd (hv.symm.trans h) (by decide)

theorem execCount_invalidateFreq (hr : s.status.faulted = false) : execCount s.invalidateFreq = execCount s := by
  simp only [execCount, unlessFaulted_ready hr, unlessFaulted_ready (s := s.invalidateFreq) hr]
  rfl

theorem sound_execCount (hr : s.status.faulted = false) (hc : 1 ≤ s.cntW) : AllNext State.Sound (execCount s) := by
  have allows := (Effects.Allows.refl countEffects s.invalidateFreq).execCount (.refl _)
  rw [execCount_invalidateFreq hr] at allows
  have freq : AllNext (fun t => t.status.freqValid = true → t.freqOk = true) (execCount s) := by
    simp only [execCount, unlessFaulted_ready hr]
    exact (countLoop_freqOk s.passes (by simp) (by exact hc) fun k _ => by simp).releaseScratch
      fun _ ht hv => (freqOk_congr rfl rfl).trans (ht hv)
  intro t ht
  have clear {f : Flag} (hs : f.of s.invalidateFreq.status = false) (hf : f ∉ countEffects.sets) :
      f.of t.status = false := by
    by_contra hne
    exact ((allows t ht).sets f (by simpa using hne)).elim (by rw [hs]; decide) hf
  exact sound_of_freq (clear (f := .treeValid) rfl (by decide)) (clear (f := .treeBuilt) rfl (by decide))
    (clear (f := .codeValid) rfl (by decide)) (freq t ht)

/-! ### huffman_tree_builder -/

theorem execBuild_invalidateTree (hr : s.status.faulted = false) (hv : s.status.freqValid = true) :
    execBuild s.invalidateTree = execBuild s := by
  have hv' : s.invalidateTree.status.freqValid = true := hv
  simp only [execBuild, unlessFaulted_ready hr, unlessFaulted_ready (s := s.invalidateTree) hr, hv, hv',
    requireFlags_true]
  rfl

theorem State.Sound.execBuild (h : s.Sound) (hr : s.status.faulted = false) : AllNext State.Sound (execBuild s) := by
  cases hv : s.status.freqValid with
  | false =>
    rw [execBuild_missing hr hv, allNext_next]
    exact h.raise .sequence
  | true =>
    have allows := (Effects.Allows.refl buildEffects s.invalidateTree).execBuild (.refl _) (by simp [hv])
    rw [execBuild_invalidateTree hr hv] at allows
    obtain ⟨t, T, ht, tree, built, -, -⟩ := execBuild_built hr hv (by have := (freqOk_iff.1 (h.freq hv)).1; omega)
    rw [ht, allNext_next] at allows ⊢
    refine ⟨fun _ => (freqOk_congr (allows.same .freq (by decide)) allows.cntW).trans (h.freq hv), fun _ => tree,
      fun _ => builtOk_iff.2 ⟨T, built⟩, fun hc => ?_⟩
    exact absurd (allows.sets .codeValid hc) (by simp [Flag.of])

/-! ### canonical_code_generator -/

theorem State.Sound.execGencode (h : s.Sound) (hr : s.status.faulted = false) :
    AllNext State.Sound (execGencode s) := by
  cases hreq : s.status.treeValid && s.status.treeBuilt with
  | false =>
    rw [execGencode_missing hr hreq, allNext_next]
    exact h.raise .sequence
  | true =>
    obtain ⟨hv, hb⟩ := Bool.and_eq_true_iff.1 hreq
    obtain ⟨T, hT⟩ := builtOk_iff.1 (h.built hb)
    rw [execGencode_eq hr hv hb hT.tree hT.syms_le (HTree.depth_le_of_syms hT.nodup hT.syms_le), allNext_next]
    have codes : (s.invalidateCode.dropCodes.withCodes (T.codes [])).HoldsCodes T :=
      holdsCodes_withCodes hT.nodup hT.syms_le
    generalize hu : (s.invalidateCode.dropCodes.withCodes (T.codes [])).validateCode = u
    have hn : u.node = s.node := by rw [← hu]; rfl
    have ha : u.nalloc = s.nalloc := by rw [← hu]; rfl
    have hroot : u.root = s.root := by rw [← hu]; rfl
    have hst : u.status = { s.status with codeValid := true } := by rw [← hu]; rfl
    have codes : u.HoldsCodes T := by rw [← hu]; exact ⟨codes.present, codes.absent⟩
    have tree := (tree_congr hn ha hroot).trans hT.tree
    refine State.Sound.freeScratch ⟨fun hf => ?_, fun _ => (treeOk_congr hn ha hroot).trans (h.tree hv),
      fun _ => (builtOk_congr hn ha hroot).trans (h.built hb),
      fun _ => ⟨by rw [hst]; exact hb, (codesOk_iff tree hT.nodup hT.syms_le).2 codes⟩⟩
    rw [← hu] at hf ⊢
    exact (freqOk_congr rfl rfl).trans (h.freq hf)

/-! ### RDHDR, and the operations that write no flag's cell -/

theorem execRdhdr_invalidateTree (hr : s.status.faulted = false) : execRdhdr s.invalidateTree = execRdhdr s := by
  simp only [execRdhdr, unlessFaulted_ready hr, unlessFaulted_ready (s := s.invalidateTree) hr]
  rfl

theorem State.Sound.execRdhdr (h : s.Sound) (hr : s.status.faulted = false) : AllNext State.Sound (execRdhdr s) := by
  intro t ht
  have allows := (Effects.Allows.refl rdhdrEffects s).execRdhdr (.refl _) t ht
  have freq : t.status.freqValid = s.status.freqValid → t.status.freqValid = true → t.freqOk = true := fun heq hv =>
    (freqOk_congr (allows.same .freq (by decide)) allows.cntW).trans (h.freq (heq ▸ hv))
  obtain ⟨-, ⟨tree, -, hst⟩ | ⟨e, -, -, hst⟩⟩ := allNext_execRdhdr hr t ht
  · exact ⟨freq (by rw [hst]), fun _ => tree, by simp [hst], by simp [hst]⟩
  · exact sound_of_freq (by rw [hst]) (by rw [hst]) (by rw [hst]) (freq (by rw [hst]))

theorem State.Sound.runStep (h : s.Sound) (hr : s.status.faulted = false) (hc : 1 ≤ s.cntW) (m : MacroStep) :
    AllNext State.Sound (runStep m s) := by
  have allows := runStep_allows m s
  cases m with
  | count => exact sound_execCount hr hc
  | build => exact h.execBuild hr
  | gencode => exact h.execGencode hr
  | rdhdr => exact h.execRdhdr hr
  | wrmagic | wrhdr | encode | rdmagic | decode =>
    exact allows.mono fun _ ht => h.of_allows ht rfl rfl (by decide)

end Sound

/-! ### No operation is left waiting -/

section Idle

variable {s : State}

theorem idle_of_allows {E : Effects} {t : State} (h : E.Allows s t) (hE : E.awaits = false) (hs : s.activity = .idle) :
    t.activity = .idle :=
  h.activity.elim (fun heq => heq.trans hs) fun h => h.resolve_right (by simp [hE])

/-- RDMAGIC ends with its one token (R163). -/
theorem idle_execRdmagic (hr : s.status.faulted = false) : AllNext (fun t => t.activity = .idle) (execRdmagic s) := by
  rw [execRdmagic, unlessFaulted_ready hr, takeToken, fetchWire_startMagic]
  cases hf : fetchMagic (startMagic s) with
  | got i t =>
    cases fetchMagic_got_eq hf
    simp only [runToken, execWMagic]
    split
    · exact allNext_next.2 rfl
    · exact allNext_refused _
    · exact allNext_refused _
  | ended o =>
    unfold fetchMagic at hf
    split at hf
    · cases hf
      exact allNext_refused _
    · cases hf
      exact allNext_next.2 rfl
    · split at hf <;> cases hf
      exact allNext_next.2 rfl

theorem idle_runStep (hs : s.activity = .idle) (hr : s.status.faulted = false) (m : MacroStep) :
    AllNext (fun t => t.activity = .idle) (runStep m s) := by
  have allows := runStep_allows m s
  cases m with
  | rdmagic => exact idle_execRdmagic hr
  | rdhdr => exact (allNext_execRdhdr hr).mono fun _ ht => ht.1
  | count | build | gencode | wrmagic | wrhdr | encode | decode =>
    exact allows.mono fun _ ht => idle_of_allows ht rfl hs

end Idle

/-! ### The invariant through macros and commands -/

section Settled

variable {s : State}

theorem State.Settled.withSeq (h : s.Settled) (seq : List MacroStep) : ({ s with seq := seq } : State).Settled :=
  ⟨h.resting.withSeq seq, h.sound.congr (fun _ => rfl) rfl rfl rfl rfl rfl rfl, h.idle⟩

theorem State.Settled.raise (h : s.Settled) (e : ErrKind) : (raise e s).Settled :=
  ⟨h.resting.raise e, h.sound.raise e, rfl⟩

theorem State.Settled.runStep (h : s.Settled) (hr : s.status.faulted = false) (m : MacroStep) :
    AllNext State.Settled (runStep m s) := fun t ht =>
  ⟨h.resting.runStep m t ht, h.sound.runStep hr h.resting.cntW_pos m t ht, idle_runStep h.idle hr m t ht⟩

theorem State.Settled.runSteps (h : s.Settled) (hr : s.status.faulted = false) (ms : List MacroStep) :
    AllNext State.Settled (runSteps ms s) := by
  induction ms generalizing s with
  | nil => exact allNext_next.2 (h.withSeq [])
  | cons m ms ih =>
    unfold Machine.runSteps
    refine ((h.withSeq ms).runStep hr m).andThen fun t ht => ?_
    split
    · exact allNext_next.2 ht
    next hf => exact ih ht (by simpa using hf)

/-- A macro that is not ended by a fault ends with nothing left to sequence (R109). -/
theorem runSteps_seq (ms : List MacroStep) (s : State) :
    AllNext (fun t => t.status.faulted = true ∨ t.seq = []) (runSteps ms s) := by
  induction ms generalizing s with
  | nil => exact allNext_next.2 (.inr rfl)
  | cons m ms ih =>
    refine allNext_andThen_of_forall fun t => ?_
    split
    next hf => exact allNext_next.2 (.inl hf)
    · exact ih t

theorem seq_of_allows {E : Effects} {t : State} (h : E.Allows s t) (hE : E.sequences = false) (hs : s.seq = []) :
    t.seq = [] :=
  h.seq.elim (fun heq => heq.trans hs) fun h => h.resolve_right (by simp [hE])

/-- A macro leaves nothing to sequence: it runs to its end, or a fault ends it (R230). -/
theorem seq_execMacro {i : Instr} {ms : List MacroStep} (hi : i ≠ .clear)
    (hrun : exec i s = unlessFaulted s (runSteps ms)) (hs : s.seq = []) :
    AllNext (fun t => t.seq = []) (exec i s) := by
  have allows := exec_allows hi s
  rw [hrun] at allows ⊢
  cases hr : s.status.faulted with
  | true =>
    rw [unlessFaulted_faulted hr]
    exact allNext_next.2 hs
  | false =>
    rw [unlessFaulted_ready hr] at allows ⊢
    intro t ht
    rcases runSteps_seq ms s t ht with hf | hseq
    · exact ((allows t ht).halts hf).elim (fun h => by rw [hr] at h; cases h) And.right
    · exact hseq

theorem seq_exec {i : Instr} (hi : isCommand i = true) (hs : s.seq = []) : AllNext (fun t => t.seq = []) (exec i s) := by
  cases i with
  | clear => exact allNext_next.2 hs
  | compress => exact seq_execMacro nofun rfl hs
  | decompress => exact seq_execMacro nofun rfl hs
  | wMagic | wInode | wLeaf => cases hi
  | count | build | gencode | wrmagic | wrhdr | encode | rdmagic | rdhdr | decode =>
    exact (exec_allows (by decide) s).mono fun _ ht => seq_of_allows ht rfl hs

/-- A faulted block ignores every command but CLEAR (R206). -/
theorem exec_of_faulted {i : Instr} (hf : s.status.faulted = true) (hi : isCommand i = true) (hne : i ≠ .clear) :
    exec i s = .next s := by
  cases i with
  | clear => exact absurd rfl hne
  | wMagic | wInode | wLeaf => cases hi
  | _ =>
    simp only [exec, execCount, execBuild, execGencode, execWrmagic, execWrhdr, execEncode, execRdmagic, execRdhdr,
      execDecode, execCompress, execDecompress, unlessFaulted_faulted hf]

theorem State.Settled.clear (h : s.Settled) : (returnFromFault s).Settled :=
  ⟨h.resting.clear, sound_of_freq rfl rfl rfl nofun, h.idle⟩

theorem State.Settled.exec (h : s.Settled) {i : Instr} (hi : isCommand i = true) :
    AllNext State.Settled (exec i s) := by
  by_cases hne : i = .clear
  · rw [hne]
    exact allNext_next.2 h.clear
  · cases hr : s.status.faulted with
    | true =>
      rw [exec_of_faulted hr hi hne]
      exact allNext_next.2 h
    | false =>
      have macros (ms : List MacroStep) : AllNext State.Settled (unlessFaulted s (Machine.runSteps ms)) :=
        allNext_unlessFaulted h (h.runSteps hr ms)
      cases i with
      | clear => exact absurd rfl hne
      | count => exact h.runStep hr .count
      | build => exact h.runStep hr .build
      | gencode => exact h.runStep hr .gencode
      | wrmagic => exact h.runStep hr .wrmagic
      | wrhdr => exact h.runStep hr .wrhdr
      | encode => exact h.runStep hr .encode
      | rdmagic => exact h.runStep hr .rdmagic
      | rdhdr => exact h.runStep hr .rdhdr
      | decode => exact h.runStep hr .decode
      | compress => exact macros compressSteps
      | decompress => exact macros decompressSteps
      | wMagic | wInode | wLeaf => cases hi

/-- Every command leads from rest to rest, with the flags true. -/
theorem ok_exec {i : Instr} (h : s.ok = true) (hi : isCommand i = true) : AllNext (fun t => t.ok = true) (exec i s) := by
  obtain ⟨settled, seq⟩ := ok_iff.1 h
  exact fun t ht => ok_iff.2 ⟨settled.exec hi t ht, seq_exec hi seq t ht⟩

/-! ### The host's actions -/

theorem isCommand_of_decodeCmd {op : BitVec 4} {i : Instr} (h : decode (.cmd op) = .ok i) : isCommand i = true := by
  simp only [decode, decodeCmd] at h
  split at h <;> cases h <;> rfl

theorem ok_runCommand (h : s.ok = true) (op : BitVec 4) : AllNext (fun t => t.ok = true) (runCommand op s) := by
  unfold runCommand
  split
  next i hi => exact ok_exec h (isCommand_of_decodeCmd hi)
  next =>
    obtain ⟨settled, -⟩ := ok_iff.1 h
    exact allNext_unlessFaulted h (allNext_next.2 (ok_iff.2 ⟨settled.raise .illegalCmd, rfl⟩))

/-- What only the host writes is read by no flag. -/
theorem State.Settled.ofHost {t : State} (h : s.Settled) (ht : t.Resting) (hst : t.status = s.status)
    (hc : t.cntW = s.cntW) (hroot : t.root = s.root) (hnalloc : t.nalloc = s.nalloc) (hfreq : t.freq = s.freq)
    (hnode : t.node = s.node) (hcode : t.code = s.code) (ha : t.activity = s.activity) : t.Settled :=
  ⟨ht, h.sound.congr (fun _ => by rw [hst]) hc hroot hnalloc hfreq hnode hcode, ha.trans h.idle⟩

theorem changeInput_eq_next {bits : Bits} {t : State} (h : changeInput bits s = .next t) :
    ∃ src, s.source = some src ∧ t = { s with source := some { src with rescan := some bits } } := by
  unfold changeInput at h
  split at h <;> cases h
  exact ⟨_, ‹_›, rfl⟩

theorem ok_runAction (h : s.ok = true) (a : HostAction) : AllNext (fun t => t.ok = true) (runAction a s) := by
  obtain ⟨settled, seq⟩ := ok_iff.1 h
  have resting := settled.resting
  cases a with
  | writeCmd op => exact ok_runCommand h op
  | bindSource bits =>
    exact allNext_next.2 (ok_iff.2
      ⟨settled.ofHost (resting.withSource (Nat.zero_le _) s.trace) rfl rfl rfl rfl rfl rfl rfl rfl, seq⟩)
  | bindSink =>
    exact allNext_next.2 (ok_iff.2 ⟨settled.ofHost (resting.withSink _ s.trace) rfl rfl rfl rfl rfl rfl rfl rfl, seq⟩)
  | changeInput bits =>
    intro t ht
    have rest := resting.changeInput bits t ht
    obtain ⟨src, -, rfl⟩ := changeInput_eq_next ht
    exact ok_iff.2 ⟨settled.ofHost rest rfl rfl rfl rfl rfl rfl rfl rfl, seq⟩
  | closeSink pad =>
    intro t ht
    have rest := resting.sinkClose pad t ht
    obtain ⟨snk, -, -, rfl⟩ := sinkClose_eq_next.1 ht
    exact ok_iff.2 ⟨settled.ofHost rest rfl rfl rfl rfl rfl rfl rfl rfl, seq⟩
  | readStatus | readErr | readCmd =>
    exact allNext_next.2 (ok_iff.2 ⟨settled.ofHost { resting with } rfl rfl rfl rfl rfl rfl rfl rfl, seq⟩)
  | reset =>
    exact allNext_next.2 (ok_iff.2 ⟨⟨resting.resetBlock, sound_of_freq rfl rfl rfl nofun, rfl⟩, rfl⟩)

/-- Settles O58: from rest a step is one of the host's actions, a whole command among them. -/
theorem stepKeepsFlagsTrue : Obligations.StepKeepsFlagsTrue := by
  intro s t h hst
  obtain ⟨settled, seq⟩ := ok_iff.1 h
  rw [step_of_atRest settled.idle seq] at hst
  cases hh : s.host with
  | nil =>
    rw [runHost_nil hh] at hst
    cases hst
    exact h
  | cons a rest =>
    rw [runHost_cons hh] at hst
    have withHost : ({ s with host := rest } : State).ok = true :=
      ok_iff.2 ⟨settled.ofHost (settled.resting.withHost rest) rfl rfl rfl rfl rfl rfl rfl rfl, seq⟩
    exact ok_runAction withHost a t hst

end Settled

end Sys2Proof.Machine
end

section
/-! SUPPORT. That the operations complete, with the ports bound and the flags true (10_state.md R46, R80, 70_reset_and_hazards.md R276):
each loop's bound is above the reads that are left, each walk stays in the tree, each code has bits to write. -/

namespace Sys2Proof.Machine

/-- The outcome is a next state. -/
def Completes (o : Outcome) : Prop := ∃ t, o = .next t

theorem completes_next (s : State) : Completes (.next s) := ⟨s, rfl⟩

theorem Completes.releaseScratch {o : Outcome} (h : Completes o) : Completes (releaseScratch o) := by
  obtain ⟨t, rfl⟩ := h
  exact completes_next _

/-! ### Ports -/

/-- The sink is bound and the host has not closed it. -/
def State.SinkOpen (s : State) : Prop := ∃ snk, s.sink = some snk ∧ snk.closed = false

/-- The source is bound, and fewer bits are left to read than passes of a loop (R276). -/
def State.ReadsWithin (passes : Nat) (s : State) : Prop :=
  ∃ src, s.source = some src ∧ src.pos ≤ src.bits.length ∧ src.bits.length < passes + src.pos

section Loops

variable {s : State} {passes : Nat}

theorem State.ReadsWithin.ne_zero (h : s.ReadsWithin 0) : False := by
  obtain ⟨src, -, hp, hl⟩ := h
  omega

theorem readsWithin_passes {src : Source} (hs : s.source = some src) (hp : src.pos ≤ src.bits.length) :
    s.ReadsWithin s.passes :=
  ⟨src, hs, hp, by simp only [State.passes, hs]; omega⟩

/-- A read leaves fewer bits, or there is no data (R61). -/
theorem State.ReadsWithin.srcRead (h : s.ReadsWithin (passes + 1)) {n : Nat} (h0 : n ≠ 0) (h32 : n ≤ 32) :
    (∃ v < 2 ^ n, ∃ src trace, srcRead n s = .data v { s with source := some src, trace := trace } ∧
      ({ s with source := some src, trace := trace } : State).ReadsWithin passes) ∨
      ∃ src trace, Machine.srcRead n s = .noData { s with source := some src, trace := trace } := by
  obtain ⟨src, hs, hp, hl⟩ := h
  rcases srcRead_of_bound hs h0 h32 with ⟨v, hv, hle, hr⟩ | hr
  · exact .inl ⟨v, hv, _, _, hr, _, rfl, hle, by dsimp only; omega⟩
  · exact .inr ⟨_, _, hr⟩

theorem State.SinkOpen.sinkWrite (h : s.SinkOpen) {n : Nat} (h0 : n ≠ 0) (h32 : n ≤ 32) (v : Nat) :
    ∃ snk trace, sinkWrite n v s = .next { s with sink := some snk, trace := trace } ∧ snk.closed = false := by
  obtain ⟨snk, hs, hc⟩ := h
  exact ⟨_, _, sinkWrite_of_open hs hc h0 h32 v, hc⟩

/-! ### frequency_counter -/

theorem countLoop_completes (h : s.ReadsWithin passes) : Completes (countLoop passes s) := by
  induction passes generalizing s with
  | zero => exact h.ne_zero.elim
  | succ passes ih =>
    unfold countLoop
    rcases h.srcRead (n := 8) (by decide) (by decide) with ⟨v, -, src, trace, hr, hw⟩ | ⟨src, trace, hr⟩
    · rw [hr]
      dsimp only
      split
      · exact ih hw
      · exact completes_next _
    · rw [hr]
      exact completes_next _

/-! ### Writing a header -/

theorem putTree_completes {i : Idx} {T : HTree} {is : List Nat} (h : s.Spans i T is) {t : State} (ho : t.SinkOpen)
    (hn : t.node = s.node) (ha : t.nalloc = s.nalloc) {depth : Nat} (hd : T.depth < depth) :
    ∃ snk trace, putTree depth i t = .next { t with sink := some snk, trace := trace } ∧ snk.closed = false := by
  induction h generalizing t depth with
  | leaf he hk =>
    obtain ⟨depth, rfl⟩ := Nat.exists_eq_add_one.2 hd
    simp only [putTree, readNode_congr hn ha, he, hk]
    obtain ⟨snk, trace, hw, hc⟩ := ho.sinkWrite (n := 1) (by decide) (by decide) 1
    rw [hw, andThen_next]
    exact State.SinkOpen.sinkWrite ⟨snk, rfl, hc⟩ (by decide) (by decide) _
  | node he hk _ _ ihl ihr =>
    simp only [HTree.depth] at hd
    obtain ⟨depth, rfl⟩ := Nat.exists_eq_add_one.2 (Nat.zero_lt_of_lt hd)
    simp only [putTree, readNode_congr hn ha, he, hk]
    obtain ⟨snk, trace, hw, hc⟩ := ho.sinkWrite (n := 1) (by decide) (by decide) 0
    rw [hw, andThen_next]
    obtain ⟨snk, trace, hw, hc⟩ := ihl (t := { t with sink := some snk, trace := trace }) ⟨snk, rfl, hc⟩ hn ha
      (depth := depth) (by omega)
    rw [hw, andThen_next]
    exact ihr (t := { t with sink := some snk, trace := trace }) ⟨snk, rfl, hc⟩ hn ha (by omega)

/-! ### huffman_payload_encoder -/

theorem emitPieces_completes (ho : s.SinkOpen) {pieces r : Nat} (hr : r ≠ 0) (hp : r ≤ 32 * pieces) (val : BitVec 256) :
    ∃ snk trace, emitPieces pieces r val s = .next { s with sink := some snk, trace := trace } ∧ snk.closed = false := by
  induction pieces generalizing r s with
  | zero => omega
  | succ pieces ih =>
    unfold emitPieces
    split
    next long =>
      obtain ⟨snk, trace, hw, hc⟩ := ho.sinkWrite (n := Config.portMaxN) (by decide) (by decide) (frontPiece r val)
      rw [hw, andThen_next]
      exact ih (s := { s with sink := some snk, trace := trace }) ⟨snk, rfl, hc⟩
        (by simp only [Config.portMaxN] at long ⊢; omega) (by simp only [Config.portMaxN] at long ⊢; omega)
    next short => exact ho.sinkWrite hr (by simpa using short) _

theorem emit_completes (ho : s.SinkOpen) {c : CodeEntry} (hc : 1 ≤ c.len.toNat) :
    ∃ snk trace, emit c s = .next { s with sink := some snk, trace := trace } ∧ snk.closed = false :=
  emitPieces_completes ho (Nat.one_le_iff_ne_zero.1 hc)
    (by simp only [Config.portMaxN]; have := Nat.div_add_mod c.len.toNat 32; have := Nat.mod_lt c.len.toNat (show 32 > 0 by decide); omega) _

/-- The codes ENCODE can emit have bits, and the sentinel has one (R153, R155). -/
def State.Encodes (s : State) : Prop :=
  (s.codeAt 256).valid = true ∧ ∀ k < 257, (s.codeAt k).valid = true → 1 ≤ (s.codeAt k).len.toNat

theorem encodeLoop_completes (h : s.ReadsWithin passes) (ho : s.SinkOpen) (hc : s.Encodes) :
    Completes (encodeLoop passes s) := by
  induction passes generalizing s with
  | zero => exact h.ne_zero.elim
  | succ passes ih =>
    obtain ⟨sentinel, long⟩ := hc
    unfold encodeLoop
    rcases h.srcRead (n := 8) (by decide) (by decide) with ⟨v, hv, src, trace, hr, hw⟩ | ⟨src, trace, hr⟩
    · rw [hr]
      dsimp only
      split
      next valid =>
        obtain ⟨snk, trace', he, hcl⟩ := emit_completes (s := { s with source := some src, trace := trace }) ho
          (long v (by omega) valid)
        obtain ⟨src', hs', within⟩ := hw
        change Completes (andThen (emit (s.codeAt v) _) _)
        rw [he, andThen_next]
        exact ih ⟨src', hs', within⟩ ⟨snk, rfl, hcl⟩ ⟨sentinel, long⟩
      · exact completes_next _
    · rw [hr]
      have valid : (({ s with source := some src, trace := trace } : State).codeAt Config.eosSym).valid = true := sentinel
      simp only [emitSentinel, valid, if_true]
      obtain ⟨snk, trace', he, -⟩ := emit_completes (s := { s with source := some src, trace := trace }) ho
        (long 256 (by decide) sentinel)
      exact ⟨_, he⟩

/-! ### huffman_payload_decoder -/

/-- The cursor is at an internal node of the tree, and so is `ROOT` (R191, R192). -/
def State.Decodes (s : State) : Prop :=
  (∃ l r is, s.Spans s.cur (.node l r) is) ∧ ∃ l r is, s.Spans s.root (.node l r) is

theorem decodeLoop_completes (h : s.ReadsWithin passes) (ho : s.SinkOpen) (hd : s.Decodes) :
    Completes (decodeLoop passes s) := by
  induction passes generalizing s with
  | zero => exact h.ne_zero.elim
  | succ passes ih =>
    obtain ⟨⟨l, r, is, hcur⟩, L, R, Is, hroot⟩ := hd
    unfold decodeLoop
    rcases h.srcRead (n := 1) (by decide) (by decide) with ⟨b, -, src, trace, hr, hw⟩ | ⟨src, trace, hr⟩
    · rw [hr]
      dsimp only
      cases hcur with
      | @node _ here _ _ ls rs he hk hl hrt =>
        obtain ⟨T, ts, child⟩ : ∃ T ts, s.Spans (childOf here b) T ts := by
          unfold childOf
          split
          · exact ⟨_, _, hl⟩
          · exact ⟨_, _, hrt⟩
        have keep {t : State} {i : Idx} {U : HTree} {us : List Nat} (hn : t.node = s.node) (ha : t.nalloc = s.nalloc)
            (hU : s.Spans i U us) : t.Spans i U us := hU.congr fun j _ => readNode_congr hn ha j
        have same (j : Idx) : ({ s with source := some src, trace := trace } : State).readNode j = s.readNode j :=
          readNode_congr rfl rfl j
        simp only [same, he]
        cases child with
        | leaf hce hck =>
          simp only [hce, hck]
          split
          · exact completes_next _
          · obtain ⟨snk, trace', hsw, hc⟩ := State.SinkOpen.sinkWrite
              (s := { s with source := some src, trace := trace }) ho (n := 8) (by decide) (by decide) _
            rw [hsw, andThen_next]
            have root := keep (t := State.cursorToRoot { s with source := some src, sink := some snk, trace := trace' })
              rfl rfl hroot
            obtain ⟨src', hs', within⟩ := hw
            exact ih ⟨src', hs', within⟩ ⟨snk, rfl, hc⟩ ⟨⟨_, _, _, root⟩, _, _, _, root⟩
        | node hce hck hcl hcr =>
          simp only [hce, hck]
          exact ih hw ho ⟨⟨_, _, _, keep rfl rfl (.node hce hck hcl hcr)⟩, _, _, _, keep rfl rfl hroot⟩
    · rw [hr]
      exact completes_next _

end Loops

/-! ### The steps of a macro, and commands -/

/-- Both ports are bound, and the host has not closed the sink. -/
structure State.PortsOpen (s : State) : Prop where
  bound  : ∃ src, s.source = some src
  opened : s.SinkOpen

section Complete

variable {s t : State}

/-- No instruction unbinds a port or closes the sink (R60, R63). -/
theorem State.PortsOpen.of_allows {E : Effects} (h : s.PortsOpen) (hst : E.Allows s t) : t.PortsOpen := by
  obtain ⟨⟨src, hs⟩, snk, hk, hc⟩ := h
  have source := hst.source
  have sink := hst.sink
  rw [hs] at source
  rw [hk] at sink
  constructor
  · cases ht : t.source with
    | none => rw [ht] at source; exact source.elim
    | some src' => exact ⟨src', rfl⟩
  · cases ht : t.sink with
    | none => rw [ht] at sink; exact sink.elim
    | some snk' => rw [ht] at sink; exact ⟨snk', ht, sink.1.trans hc⟩

/-- RDMAGIC takes its token, or raises its fault (R163). -/
theorem takeMagic_completes (hb : ∃ src, s.source = some src) : Completes (takeToken (startMagic s)) := by
  obtain ⟨src, hs⟩ := hb
  rw [takeToken, fetchWire_startMagic]
  rcases srcRead_of_bound (s := startMagic s) hs (n := Config.magicW) (by decide) (by decide) with ⟨v, -, -, hr⟩ | hr
  · cases hd : decode (.wire (bitsOf Config.magicW v)) with
    | ok i =>
      have fetched := by simpa only [hr, hd] using fetchMagic.eq_def (startMagic s)
      cases fetchMagic_got_eq fetched
      rw [fetched]
      exact completes_next _
    | error e =>
      simp only [fetchMagic, hr, hd]
      exact completes_next _
  · simp only [fetchMagic, hr]
    exact completes_next _

/-- The codes of a built tree can be emitted. -/
theorem encodes_of_sound (h : s.Sound) (hc : s.status.codeValid = true) : s.Encodes := by
  obtain ⟨hb, hok⟩ := h.code hc
  obtain ⟨T, hT⟩ := builtOk_iff.1 (h.built hb)
  have codes := (codesOk_iff hT.tree hT.nodup hT.syms_le).1 hok
  constructor
  · have hmem := hT.sentinel
    rw [← T.codes_fst []] at hmem
    obtain ⟨c, hmem, heq⟩ := List.mem_map.1 hmem
    have present := codes.present c hmem
    rw [heq] at present
    exact present ▸ rfl
  · intro k hk hv
    obtain ⟨c, hmem, -, heq⟩ := codes.of_valid hk hv
    obtain ⟨pos, le⟩ := hT.length_of_mem_codes hmem
    rwa [heq, codeOf_len le]

theorem runStep_completes (h : s.Settled) (hr : s.status.faulted = false) (ho : s.PortsOpen) (m : MacroStep) :
    Completes (runStep m s) := by
  obtain ⟨⟨src, hs⟩, hopen⟩ := ho
  have reads := readsWithin_passes hs (h.resting.pos_le src hs)
  cases m with
  | count =>
    simp only [runStep, execCount, unlessFaulted_ready hr]
    exact (countLoop_completes (s := s.invalidateFreq.zeroFreq) reads).releaseScratch
  | build =>
    cases hv : s.status.freqValid with
    | false => exact ⟨_, execBuild_missing hr hv⟩
    | true =>
      have sentinel := (freqOk_iff.1 (h.sound.freq hv)).1
      obtain ⟨t, -, ht, -⟩ := execBuild_built hr hv (by omega)
      exact ⟨t, ht⟩
  | gencode =>
    cases hreq : s.status.treeValid && s.status.treeBuilt with
    | false => exact ⟨_, execGencode_missing hr hreq⟩
    | true =>
      obtain ⟨hv, hb⟩ := Bool.and_eq_true_iff.1 hreq
      obtain ⟨T, hT⟩ := builtOk_iff.1 (h.sound.built hb)
      obtain ⟨t, ht, -⟩ := execGencode_built hr hv hb hT
      exact ⟨t, ht⟩
  | wrmagic =>
    simp only [runStep, execWrmagic, unlessFaulted_ready hr]
    obtain ⟨snk, trace, hw, -⟩ := hopen.sinkWrite (n := Config.magicW) (by decide) (by decide) Config.magic
    exact ⟨_, hw⟩
  | wrhdr =>
    cases hv : s.status.treeValid with
    | false => exact ⟨_, execWrhdr_missing hr hv⟩
    | true =>
      obtain ⟨T, is, spans, hn, -⟩ := treeOk_iff.1 (h.sound.tree hv)
      obtain ⟨snk, trace, hw, -⟩ := putTree_completes spans hopen rfl rfl (spans.depth_lt_nodeCap hn)
      simp only [runStep, execWrhdr, unlessFaulted_ready hr, hv, requireFlags_true]
      exact Completes.releaseScratch ⟨_, hw⟩
  | encode =>
    cases hv : s.status.codeValid with
    | false => exact ⟨_, execEncode_missing hr hv⟩
    | true =>
      simp only [runStep, execEncode, unlessFaulted_ready hr, hv, requireFlags_true, srcReset_of_bound hs, andThen_next]
      refine Completes.releaseScratch (encodeLoop_completes (readsWithin_passes rfl (Nat.zero_le _)) hopen ?_)
      obtain ⟨sentinel, long⟩ := encodes_of_sound h.sound hv
      exact ⟨sentinel, long⟩
  | rdmagic =>
    simp only [runStep, execRdmagic, unlessFaulted_ready hr]
    exact takeMagic_completes ⟨src, hs⟩
  | rdhdr =>
    obtain ⟨t, ht, -⟩ := execRdhdr_ends hr hs
    exact ⟨t, ht⟩
  | decode =>
    cases hv : s.status.treeValid with
    | false => exact ⟨_, execDecode_missing hr hv⟩
    | true =>
      obtain ⟨T, is, spans, -⟩ := treeOk_iff.1 (h.sound.tree hv)
      simp only [runStep, execDecode, unlessFaulted_ready hr, hv, requireFlags_true]
      cases spans with
      | leaf he hk =>
        simp only [he, hk]
        exact completes_next _
      | node he hk hl hrt =>
        have root : s.cursorToRoot.Spans s.root _ _ :=
          (State.Spans.node he hk hl hrt).congr fun j _ => readNode_congr rfl rfl j
        simp only [he, hk]
        exact decodeLoop_completes reads hopen ⟨⟨_, _, _, root⟩, _, _, _, root⟩

/-- A macro completes: every step is taken from a state of the invariant, the ports open (R109). -/
theorem runSteps_completes (h : s.Settled) (hr : s.status.faulted = false) (ho : s.PortsOpen) (ms : List MacroStep) :
    Completes (runSteps ms s) := by
  induction ms generalizing s with
  | nil => exact completes_next _
  | cons m ms ih =>
    have open' : ({ s with seq := ms } : State).PortsOpen := ⟨ho.bound, ho.opened⟩
    obtain ⟨t, ht⟩ := runStep_completes (h.withSeq ms) hr open' m
    unfold runSteps
    rw [ht, andThen_next]
    split
    · exact completes_next _
    next hf =>
      exact ih ((h.withSeq ms).runStep hr m t ht) (by simpa using hf) (open'.of_allows (runStep_allows m _ t ht))

theorem exec_completes {i : Instr} (hi : isCommand i = true) (h : s.Settled) (ho : s.PortsOpen) :
    Completes (exec i s) := by
  by_cases hne : i = .clear
  · exact hne ▸ completes_next _
  · cases hr : s.status.faulted with
    | true => exact ⟨s, exec_of_faulted hr hi hne⟩
    | false =>
      have steps := runStep_completes h hr ho
      cases i with
      | clear => exact absurd rfl hne
      | count => exact steps .count
      | build => exact steps .build
      | gencode => exact steps .gencode
      | wrmagic => exact steps .wrmagic
      | wrhdr => exact steps .wrhdr
      | encode => exact steps .encode
      | rdmagic => exact steps .rdmagic
      | rdhdr => exact steps .rdhdr
      | decode => exact steps .decode
      | compress =>
        rw [exec, execCompress, unlessFaulted_ready hr]
        exact runSteps_completes h hr ho _
      | decompress =>
        rw [exec, execDecompress, unlessFaulted_ready hr]
        exact runSteps_completes h hr ho _
      | wMagic | wInode | wLeaf => cases hi

/-- Settles O59: every command completes, and O58's invariant goes through it. -/
theorem everyCommandCompletes : Obligations.EveryCommandCompletes := by
  intro i s src snk hi hok hs hk hc
  obtain ⟨t, ht⟩ := exec_completes hi (ok_iff.1 hok).1 ⟨⟨src, hs⟩, snk, hk, hc⟩
  exact ⟨t, ht, ok_exec hok hi t ht⟩

end Complete

end Sys2Proof.Machine
end

section
/-! SUPPORT. Two runs side by side (10_state.md R44, R46): what two states have in common that differ only in unwritten and scratch state,
and the rules by which the operations keep it in common. -/

namespace Sys2Proof.Machine

/-! ### States -/

/-- Two states agree in every register and port a command reads or writes without a flag that vouches for it. -/
structure State.SameCore (s t : State) : Prop where
  cntW     : s.cntW = t.cntW
  status   : s.status = t.status
  err      : s.err = t.err
  activity : s.activity = t.activity
  seq      : s.seq = t.seq
  source   : s.source = t.source
  sink     : s.sink = t.sink
  host     : s.host = t.host
  readout  : s.readout = t.readout
  trace    : s.trace = t.trace
  draws    : s.draws = t.draws

/-- Two states hold the same tree, and the same weights if it was built. -/
def State.SameTree (built : Bool) (s t : State) : Prop :=
  s.root = t.root ∧ s.nalloc = t.nalloc ∧
    ∀ i : Idx, i.toNat < s.nalloc.toNat → nodeAlike built (s.nodeAt i) (t.nodeAt i) = true

/-- Two states hold the same codes. -/
def State.SameCodes (s t : State) : Prop := ∀ k < 257, codeAlike (s.codeAt k) (t.codeAt k) = true

/-- `State.alike`, part by part. -/
structure State.Like (s t : State) : Prop extends s.SameCore t where
  freq : s.status.freqValid = true → s.freq = t.freq
  tree : s.status.treeValid = true → s.SameTree s.status.treeBuilt t
  code : s.status.codeValid = true → s.SameCodes t

theorem alike_iff {s t : State} : s.alike t ↔ s.Like t := by
  constructor
  · rintro ⟨cntW, status, err, activity, seq, source, sink, host, readout, trace, draws, freq, tree, code⟩
    exact { cntW, status, err, activity, seq, source, sink, host, readout, trace, draws, freq, tree, code }
  · rintro ⟨⟨cntW, status, err, activity, seq, source, sink, host, readout, trace, draws⟩, freq, tree, code⟩
    exact ⟨cntW, status, err, activity, seq, source, sink, host, readout, trace, draws, freq, tree, code⟩

theorem nodeAlike_iff {built : Bool} {a b : NodeEntry} :
    nodeAlike built a b = true ↔ a.kind = b.kind ∧ (a.kind = .leaf → a.sym = b.sym) ∧
      (a.kind = .internal → a.left = b.left ∧ a.right = b.right) ∧ (built = true → a.weight = b.weight) := by
  unfold nodeAlike
  cases ha : a.kind <;> cases hb : b.kind <;> cases built <;> simp [and_assoc]

theorem readNode_alike {built : Bool} {s t : State} (h : s.SameTree built t) (i : Idx) :
    (s.readNode i = none ∧ t.readNode i = none) ∨
      ∃ a b, s.readNode i = some a ∧ t.readNode i = some b ∧ nodeAlike built a b = true := by
  obtain ⟨-, hn, nodes⟩ := h
  by_cases hi : i.toNat < s.nalloc.toNat ∧ i.toNat < 513
  · exact .inr ⟨_, _, readNode_eq_some.2 ⟨hi.1, hi.2, rfl⟩, readNode_eq_some.2 ⟨hn ▸ hi.1, hi.2, rfl⟩, nodes i hi.1⟩
  · left
    constructor <;> rw [Option.eq_none_iff_forall_ne_some] <;> intro e he <;> obtain ⟨h1, h2, -⟩ := readNode_eq_some.1 he
    · exact hi ⟨h1, h2⟩
    · exact hi ⟨hn ▸ h1, h2⟩

/-! ### Outcomes -/

/-- Two outcomes are next states in the relation, or the same stop. -/
inductive OutcomeRel (R : State → State → Prop) : Outcome → Outcome → Prop where
  | next {s t : State} (h : R s t) : OutcomeRel R (.next s) (.next t)
  | fault (r : Fault) : OutcomeRel R (.fault r) (.fault r)
  | refused (r : Refusal) : OutcomeRel R (.refused r) (.refused r)

theorem outcomeAlike_of_rel {o p : Outcome} (h : OutcomeRel State.Like o p) : outcomeAlike o p := by
  cases h with
  | next h => exact alike_iff.2 h
  | fault | refused => rfl

theorem OutcomeRel.mono {R Q : State → State → Prop} {o p : Outcome} (h : OutcomeRel R o p)
    (hRQ : ∀ s t, R s t → Q s t) : OutcomeRel Q o p := by
  cases h with
  | next h => exact .next (hRQ _ _ h)
  | fault r => exact .fault r
  | refused r => exact .refused r

theorem OutcomeRel.andThen {R Q : State → State → Prop} {o p : Outcome} {f g : State → Outcome} (h : OutcomeRel R o p)
    (hfg : ∀ s t, R s t → OutcomeRel Q (f s) (g t)) : OutcomeRel Q (andThen o f) (Machine.andThen p g) := by
  cases h with
  | next h => exact hfg _ _ h
  | fault r => exact .fault r
  | refused r => exact .refused r

/-- Two outcomes are the given states with the same change of the ports, or the same stop. -/
inductive PortRel (s t : State) : Outcome → Outcome → Prop where
  | next (src : Option Source) (snk : Option Sink) (trace : List PortEvent) :
      PortRel s t (.next { s with source := src, sink := snk, trace := trace })
        (.next { t with source := src, sink := snk, trace := trace })
  | fault (r : Fault) : PortRel s t (.fault r) (.fault r)
  | refused (r : Refusal) : PortRel s t (.refused r) (.refused r)

theorem PortRel.of_eq {s t u v : State} {src : Option Source} {snk : Option Sink} {trace : List PortEvent}
    (hu : { s with source := src, sink := snk, trace := trace } = u)
    (hv : { t with source := src, sink := snk, trace := trace } = v) : PortRel s t (.next u) (.next v) :=
  hu ▸ hv ▸ .next src snk trace

theorem PortRel.rel {s t : State} {o p : Outcome} {R : State → State → Prop} (h : PortRel s t o p)
    (hR : ∀ src snk trace, R { s with source := src, sink := snk, trace := trace }
      { t with source := src, sink := snk, trace := trace }) : OutcomeRel R o p := by
  cases h with
  | next src snk trace => exact .next (hR src snk trace)
  | fault r => exact .fault r
  | refused r => exact .refused r

/-- A change of the ports after another is a change of the ports. -/
theorem PortRel.of_ports {s t : State} {o p : Outcome} {src : Option Source} {snk : Option Sink}
    {trace : List PortEvent}
    (h : PortRel { s with source := src, sink := snk, trace := trace }
      { t with source := src, sink := snk, trace := trace } o p) : PortRel s t o p := by
  cases h with
  | next src snk trace => exact .next src snk trace
  | fault r => exact .fault r
  | refused r => exact .refused r

theorem PortRel.andThen {s t : State} {o p : Outcome} {f g : State → Outcome} (h : PortRel s t o p)
    (hfg : ∀ src snk trace, PortRel { s with source := src, sink := snk, trace := trace }
      { t with source := src, sink := snk, trace := trace } (f { s with source := src, sink := snk, trace := trace })
      (g { t with source := src, sink := snk, trace := trace })) :
    PortRel s t (andThen o f) (Machine.andThen p g) := by
  cases h with
  | next src snk trace => exact (hfg src snk trace).of_ports
  | fault r => exact .fault r
  | refused r => exact .refused r

variable {s t : State}

theorem State.SameCore.ports (h : s.SameCore t) (src : Option Source) (snk : Option Sink) (trace : List PortEvent) :
    ({ s with source := src, sink := snk, trace := trace } : State).SameCore
      { t with source := src, sink := snk, trace := trace } :=
  { h with source := rfl, sink := rfl, trace := rfl }

theorem State.Like.ports (h : s.Like t) (src : Option Source) (snk : Option Sink) (trace : List PortEvent) :
    ({ s with source := src, sink := snk, trace := trace } : State).Like
      { t with source := src, sink := snk, trace := trace } :=
  { h with source := rfl, sink := rfl, trace := rfl }

theorem State.SameCore.read (h : s.SameCore t) (src : Option Source) (trace : List PortEvent) :
    ({ s with source := src, trace := trace } : State).SameCore { t with source := src, trace := trace } :=
  { h with source := rfl, trace := rfl }

theorem State.Like.read (h : s.Like t) (src : Option Source) (trace : List PortEvent) :
    ({ s with source := src, trace := trace } : State).Like { t with source := src, trace := trace } :=
  { h with source := rfl, trace := rfl }

theorem State.Like.raise (h : s.Like t) (e : ErrKind) : (raise e s).Like (raise e t) :=
  { h with
    err := by rw [raise_err, raise_err, h.err]
    status := by rw [raise_status, raise_status, h.status]
    activity := rfl
    seq := rfl }

theorem State.Like.freeScratch (h : s.Like t) : s.freeScratch.Like t.freeScratch :=
  { h with draws := congrArg (· + 1) h.draws }

/-! ### Ports -/

/-- A read gives both runs the same answer (R61), and leaves them in a relation that the source and the trace do not matter to. -/
theorem srcRead_same {R : State → State → Prop} (h : s.SameCore t)
    (hR : ∀ src trace, R { s with source := src, trace := trace } { t with source := src, trace := trace }) (n : Nat) :
    (∃ r, srcRead n s = .refused r ∧ srcRead n t = .refused r) ∨
      (∃ u v, R u v ∧ srcRead n s = .noData u ∧ srcRead n t = .noData v) ∨
      ∃ b < 2 ^ n, ∃ u v, R u v ∧ srcRead n s = .data b u ∧ srcRead n t = .data b v := by
  have answer : srcRead n t =
      match srcRead n s with
      | .refused r => .refused r
      | .noData u => .noData { t with source := u.source, trace := u.trace }
      | .data v u => .data v { t with source := u.source, trace := u.trace } := by
    unfold srcRead
    rw [← h.source]
    cases s.source with
    | none => rfl
    | some src =>
      dsimp only
      split
      · rfl
      · split <;> simp only [State.note, h.trace]
  cases hr : srcRead n s with
  | refused r => exact .inl ⟨r, rfl, by rw [answer, hr]⟩
  | noData u =>
    obtain ⟨src, -, -, -, -, rfl⟩ := srcRead_eq_noData hr
    exact .inr (.inl ⟨_, _, hR _ _, rfl, by rw [answer, hr]⟩)
  | data v u =>
    have lt := srcRead_lt hr
    obtain ⟨src, -, -, -, -, -, -, rfl⟩ := srcRead_eq_data hr
    exact .inr (.inr ⟨v, lt, _, _, hR _ _, rfl, by rw [answer, hr]⟩)

theorem sinkWrite_same (h : s.SameCore t) (n v : Nat) : PortRel s t (sinkWrite n v s) (sinkWrite n v t) := by
  unfold sinkWrite
  rw [← h.sink]
  cases s.sink with
  | none => exact .refused _
  | some snk =>
    dsimp only
    split
    · exact .refused _
    · split
      · exact .refused _
      · exact .of_eq rfl (by rw [← h.source, ← h.trace]; rfl)

theorem srcReset_same (h : s.SameCore t) : PortRel s t (srcReset s) (srcReset t) := by
  unfold srcReset
  rw [← h.source]
  cases s.source with
  | none => exact .refused _
  | some src => exact .of_eq rfl (by rw [← h.sink, ← h.trace]; rfl)

end Sys2Proof.Machine
end

section
/-! SUPPORT. Each operation in two runs from states that differ only in unwritten and scratch state (10_state.md R44, R46): the outcomes
differ in nothing else. -/

namespace Sys2Proof.Machine

variable {s t : State}

/-! ### How a command begins -/

theorem unlessFaulted_rel {f g : State → Outcome} (h : s.Like t)
    (hfg : s.status.faulted = false → OutcomeRel State.Like (f s) (g t)) :
    OutcomeRel State.Like (unlessFaulted s f) (unlessFaulted t g) := by
  cases hr : s.status.faulted with
  | true => rw [unlessFaulted_faulted hr, unlessFaulted_faulted (h.status ▸ hr)]; exact .next h
  | false => rw [unlessFaulted_ready hr, unlessFaulted_ready (h.status ▸ hr)]; exact hfg hr

/-- The prerequisite is read from `STATUS`, which the runs have in common. -/
theorem requireFlags_rel {c d : Bool} {f g : State → Outcome} (h : s.Like t) (hcd : c = d)
    (hfg : c = true → OutcomeRel State.Like (f s) (g t)) :
    OutcomeRel State.Like (requireFlags c s f) (requireFlags d t g) := by
  subst hcd
  cases c with
  | true => exact hfg rfl
  | false => exact .next (h.raise .sequence)

theorem releaseScratch_rel {o p : Outcome} (h : OutcomeRel State.Like o p) :
    OutcomeRel State.Like (releaseScratch o) (releaseScratch p) :=
  h.andThen fun _ _ h => .next h.freeScratch

/-! ### Writing a header -/

theorem putTree_same {built : Bool} (h : s.SameCore t) (hT : s.SameTree built t) (depth : Nat) (i : Idx) :
    PortRel s t (putTree depth i s) (putTree depth i t) := by
  induction depth generalizing i s t with
  | zero => exact .fault _
  | succ depth ih =>
    unfold putTree
    rcases readNode_alike hT i with ⟨hs, ht⟩ | ⟨a, b, hs, ht, hab⟩
    · rw [hs, ht]
      exact .fault _
    · obtain ⟨kind, sym, children, -⟩ := nodeAlike_iff.1 hab
      rw [hs, ht]
      dsimp only
      rw [← kind]
      cases hk : a.kind with
      | leaf =>
        rw [← sym hk]
        exact (sinkWrite_same h 1 1).andThen fun _ _ _ => sinkWrite_same (h.ports _ _ _) _ _
      | internal =>
        obtain ⟨left, right⟩ := children hk
        rw [← left, ← right]
        refine (sinkWrite_same h 1 0).andThen fun _ _ _ => ?_
        exact (ih (h.ports _ _ _) (by exact hT) _).andThen fun _ _ _ => ih ((h.ports _ _ _).ports _ _ _) (by exact hT) _

theorem execWrmagic_rel (h : s.Like t) : OutcomeRel State.Like (execWrmagic s) (execWrmagic t) :=
  unlessFaulted_rel h fun _ => (sinkWrite_same h.toSameCore _ _).rel h.ports

theorem execWrhdr_rel (h : s.Like t) : OutcomeRel State.Like (execWrhdr s) (execWrhdr t) := by
  refine unlessFaulted_rel h fun _ => requireFlags_rel h (by rw [h.status]) fun hv => ?_
  rw [← (h.tree hv).1]
  exact releaseScratch_rel ((putTree_same h.toSameCore (h.tree hv) _ _).rel h.ports)

/-! ### huffman_payload_encoder -/

theorem emitPieces_same (h : s.SameCore t) (pieces r : Nat) (val : BitVec 256) :
    PortRel s t (emitPieces pieces r val s) (emitPieces pieces r val t) := by
  induction pieces generalizing r s t with
  | zero => exact .fault _
  | succ pieces ih =>
    unfold emitPieces
    split
    · exact (sinkWrite_same h _ _).andThen fun _ _ _ => ih (h.ports _ _ _) _
    · exact sinkWrite_same h _ _

/-- Two entries of `CODE` are absent in both runs, or one code. -/
theorem codeAlike_iff {a b : CodeEntry} :
    codeAlike a b = true ↔ (a.valid = true ∧ a = b) ∨ (a.valid = false ∧ b.valid = false) := by
  unfold codeAlike
  cases ha : a.valid <;> simp

theorem emitSentinel_rel (h : s.Like t) (hc : s.SameCodes t) :
    OutcomeRel State.Like (emitSentinel s) (emitSentinel t) := by
  unfold emitSentinel
  rcases codeAlike_iff.1 (hc 256 (by decide)) with ⟨hv, heq⟩ | ⟨hv, hv'⟩
  · rw [if_pos hv, if_pos (heq ▸ hv), ← heq]
    exact (emitPieces_same h.toSameCore _ _ _).rel h.ports
  · rw [if_neg (by simp [hv]), if_neg (by simp [hv'])]
    exact .fault _

/-- While ENCODE writes: the codes are the same. -/
structure State.LikeEncoding (s t : State) : Prop extends s.Like t where
  codes : s.SameCodes t

theorem State.LikeEncoding.ports (h : s.LikeEncoding t) (src : Option Source) (snk : Option Sink)
    (trace : List PortEvent) :
    ({ s with source := src, sink := snk, trace := trace } : State).LikeEncoding
      { t with source := src, sink := snk, trace := trace } :=
  { h.toLike.ports src snk trace with codes := h.codes }

theorem State.LikeEncoding.read (h : s.LikeEncoding t) (src : Option Source) (trace : List PortEvent) :
    ({ s with source := src, trace := trace } : State).LikeEncoding { t with source := src, trace := trace } :=
  { h.toLike.read src trace with codes := h.codes }

theorem encodeLoop_rel (h : s.LikeEncoding t) (passes : Nat) :
    OutcomeRel State.Like (encodeLoop passes s) (encodeLoop passes t) := by
  induction passes generalizing s t with
  | zero => exact .fault _
  | succ passes ih =>
    unfold encodeLoop
    rcases srcRead_same h.toSameCore h.read 8 with ⟨r, hs, ht⟩ | ⟨u, v, h, hs, ht⟩ | ⟨b, hb, u, v, h, hs, ht⟩
    · rw [hs, ht]
      exact .refused r
    · rw [hs, ht]
      exact emitSentinel_rel h.toLike h.codes
    · rw [hs, ht]
      dsimp only
      rcases codeAlike_iff.1 (h.codes b (by omega)) with ⟨hv, heq⟩ | ⟨hv, hv'⟩
      · rw [if_pos hv, if_pos (heq ▸ hv), ← heq]
        exact ((emitPieces_same h.toSameCore _ _ _).rel h.ports).andThen fun _ _ h => ih h
      · rw [if_neg (by simp [hv]), if_neg (by simp [hv'])]
        exact .next (h.toLike.raise .noCode)

theorem execEncode_rel (h : s.Like t) : OutcomeRel State.Like (execEncode s) (execEncode t) := by
  refine unlessFaulted_rel h fun _ => requireFlags_rel h (by rw [h.status]) fun hv => ?_
  refine releaseScratch_rel (((srcReset_same h.toSameCore).rel (R := State.LikeEncoding)
    fun _ _ _ => { h.ports _ _ _ with codes := h.code hv }).andThen fun s t h => ?_)
  have passes : s.passes = t.passes := by simp only [State.passes, h.source]
  rw [← passes]
  exact encodeLoop_rel h _

/-! ### huffman_payload_decoder -/

/-- Between two bits of a payload: the tree is the same, and the cursor at the same internal node (R190, R191). -/
structure State.LikeDecoding (s t : State) : Prop extends s.Like t where
  valid : s.status.treeValid = true
  cur   : s.cur = t.cur
  node  : ∀ e, s.readNode s.cur = some e → e.kind = .internal
  top   : ∀ e, s.readNode s.root = some e → e.kind = .internal

theorem State.Like.moveCursor (h : s.Like t) (i j : Idx) (d : DState) :
    (State.setDState d { s with cur := i }).Like (State.setDState d { t with cur := j }) :=
  { h with status := congrArg (fun st : Status => { st with dstate := d }) h.status }

theorem State.LikeDecoding.read (h : s.LikeDecoding t) (src : Option Source) (trace : List PortEvent) :
    ({ s with source := src, trace := trace } : State).LikeDecoding { t with source := src, trace := trace } :=
  { h.toLike.read src trace with valid := h.valid, cur := h.cur, node := h.node, top := h.top }

/-- Back at the root (R190). -/
theorem State.LikeDecoding.toRoot (h : s.LikeDecoding t) : s.cursorToRoot.LikeDecoding t.cursorToRoot :=
  { h.toLike.moveCursor s.root t.root .atRoot with valid := h.valid, cur := (h.tree h.valid).1, node := h.top, top := h.top }

theorem decodeLoop_rel (h : s.LikeDecoding t) (passes : Nat) :
    OutcomeRel State.Like (decodeLoop passes s) (decodeLoop passes t) := by
  induction passes generalizing s t with
  | zero => exact .fault _
  | succ passes ih =>
    unfold decodeLoop
    rcases srcRead_same h.toSameCore h.read 1 with ⟨r, hs, ht⟩ | ⟨u, v, h, hs, ht⟩ | ⟨b, -, u, v, h, hs, ht⟩
    · rw [hs, ht]
      exact .refused r
    · rw [hs, ht]
      exact .next (h.toLike.raise .malformedPayload)
    · rw [hs, ht]
      dsimp only
      rw [← h.cur]
      have hT := h.tree h.valid
      rcases readNode_alike hT u.cur with ⟨hs, ht⟩ | ⟨a, a', hs, ht, haa⟩
      · rw [hs, ht]
        exact .fault _
      · have internal : a.kind = .internal := h.node a hs
        obtain ⟨left, right⟩ := (nodeAlike_iff.1 haa).2.2.1 internal
        have child : childOf a' b = childOf a b := by simp only [childOf, left, right]
        rw [hs, ht]
        dsimp only
        rw [child]
        rcases readNode_alike hT (childOf a b) with ⟨hs, ht⟩ | ⟨e, e', hs, ht, hee⟩
        · rw [hs, ht]
          exact .fault _
        · obtain ⟨kind, sym, -⟩ := nodeAlike_iff.1 hee
          have moved := h.toLike.moveCursor (childOf a b) (childOf a b)
          rw [hs, ht]
          dsimp only
          rw [← kind]
          cases hk : e.kind with
          | internal =>
            refine ih { moved .descending with valid := h.valid, cur := rfl, node := ?_, top := h.top }
            intro e₀ he₀
            cases hs.symm.trans he₀
            exact hk
          | leaf =>
            dsimp only
            rw [← sym hk]
            split
            · exact .next (moved .terminated)
            · refine ((sinkWrite_same h.toSameCore 8 e.sym.toNat).rel (R := State.LikeDecoding) fun _ _ _ => ?_).andThen
                fun _ _ h => ih h.toRoot
              exact { h.ports _ _ _ with valid := h.valid, cur := h.cur, node := h.node, top := h.top }

theorem execDecode_rel (h : s.Like t) : OutcomeRel State.Like (execDecode s) (execDecode t) := by
  refine unlessFaulted_rel h fun _ => requireFlags_rel h (by rw [h.status]) fun hv => ?_
  have root := (h.tree hv).1
  rw [← root]
  rcases readNode_alike (h.tree hv) s.root with ⟨hs, ht⟩ | ⟨a, b, hs, ht, hab⟩
  · rw [hs, ht]
    exact .fault _
  · have kind := (nodeAlike_iff.1 hab).1
    have passes : s.passes = t.passes := by simp only [State.passes, h.source]
    rw [hs, ht]
    dsimp only
    rw [← kind, ← passes]
    cases hk : a.kind with
    | leaf => exact .next (h.raise .degenerateTree)
    | internal =>
      have top : ∀ e, s.readNode s.root = some e → e.kind = .internal := fun e he => by
        cases hs.symm.trans he
        exact hk
      exact decodeLoop_rel { h.moveCursor s.root t.root .atRoot with valid := hv, cur := root, node := top, top := top } _

/-! ### canonical_code_generator -/

/-- While GENCODE records codes: the tree and the table so far are the same. -/
structure State.LikeCoding (s t : State) : Prop extends s.Like t where
  built : s.SameTree true t
  codes : s.SameCodes t

theorem recordCode_rel (h : s.LikeCoding t) (sym : Sym) (path : Bits) :
    OutcomeRel State.LikeCoding (recordCode sym path s) (recordCode sym path t) := by
  unfold recordCode
  split
  · have codes : (s.withCodes [(sym, path)]).SameCodes (t.withCodes [(sym, path)]) := by
      intro k hk
      rw [codeAt_withCodes_singleton s _ hk, codeAt_withCodes_singleton t _ hk]
      split
      · exact codeAlike_iff.2 (.inl ⟨rfl, rfl⟩)
      · exact h.codes k hk
    exact .next { h with code := fun _ => codes, codes := codes }
  · exact .fault _

theorem codeWalk_rel (h : s.LikeCoding t) (depth : Nat) (i : Idx) (path : Bits) :
    OutcomeRel State.LikeCoding (codeWalk depth i path s) (codeWalk depth i path t) := by
  induction depth generalizing i path s t with
  | zero => exact .fault _
  | succ depth ih =>
    unfold codeWalk
    rcases readNode_alike h.built i with ⟨hs, ht⟩ | ⟨a, b, hs, ht, hab⟩
    · rw [hs, ht]
      exact .fault _
    · obtain ⟨kind, sym, children, -⟩ := nodeAlike_iff.1 hab
      rw [hs, ht]
      dsimp only
      rw [← kind]
      cases hk : a.kind with
      | leaf =>
        dsimp only
        rw [← sym hk]
        exact recordCode_rel h _ _
      | internal =>
        obtain ⟨left, right⟩ := children hk
        dsimp only
        rw [← left, ← right]
        exact (ih h _ _).andThen fun _ _ h => ih h _ _

theorem execGencode_rel (h : s.Like t) : OutcomeRel State.Like (execGencode s) (execGencode t) := by
  refine unlessFaulted_rel h fun _ => requireFlags_rel h (by rw [h.status]) fun hreq => ?_
  obtain ⟨hv, hb⟩ := Bool.and_eq_true_iff.1 hreq
  have built : s.SameTree true t := hb ▸ h.tree hv
  have dropped : s.invalidateCode.dropCodes.SameCodes t.invalidateCode.dropCodes := fun k _ => by
    rw [codeAt_dropCodes, codeAt_dropCodes]
    exact codeAlike_iff.2 (.inr ⟨rfl, rfl⟩)
  have start : s.invalidateCode.dropCodes.LikeCoding t.invalidateCode.dropCodes :=
    { h with
      status := congrArg (fun st : Status => { st with codeValid := false }) h.status
      code := nofun
      built := built
      codes := dropped }
  rw [← built.1]
  refine releaseScratch_rel ((codeWalk_rel start _ _ _).andThen fun s t h => .next ?_)
  exact
    { h with
      status := congrArg (fun st : Status => { st with codeValid := true }) h.status
      code := fun _ => h.codes }

end Sys2Proof.Machine
end

section
/-! SUPPORT. The operations that write what a flag vouches for, in two runs (10_state.md R46): COUNT starts from no counts, BUILD and RDHDR
from no nodes, so what they leave in common does not rest on what stood there. -/

namespace Sys2Proof.Machine

variable {s t : State}

/-! ### frequency_counter -/

/-- While COUNT counts: the counts are the same. -/
structure State.LikeCounting (s t : State) : Prop extends s.SameCore t where
  counts : s.freq = t.freq
  noTree : s.status.treeValid = false
  noCode : s.status.codeValid = false

theorem State.LikeCounting.toLike (h : s.LikeCounting t) : s.Like t :=
  { h with
    freq := fun _ => h.counts
    tree := fun hv => by rw [h.noTree] at hv; cases hv
    code := fun hv => by rw [h.noCode] at hv; cases hv }

theorem State.LikeCounting.read (h : s.LikeCounting t) (src : Option Source) (trace : List PortEvent) :
    ({ s with source := src, trace := trace } : State).LikeCounting { t with source := src, trace := trace } :=
  { h with source := rfl, trace := rfl }

theorem State.LikeCounting.setFreq (h : s.LikeCounting t) (k n : Nat) : (s.setFreq k n).LikeCounting (t.setFreq k n) :=
  { h with counts := by rw [setFreq_freq, setFreq_freq, h.counts] }

theorem countLoop_rel (h : s.LikeCounting t) (passes : Nat) :
    OutcomeRel State.Like (countLoop passes s) (countLoop passes t) := by
  induction passes generalizing s t with
  | zero => exact .fault _
  | succ passes ih =>
    unfold countLoop
    rcases srcRead_same h.toSameCore h.read 8 with ⟨r, hs, ht⟩ | ⟨u, v, h, hs, ht⟩ | ⟨b, -, u, v, h, hs, ht⟩
    · rw [hs, ht]
      exact .refused r
    · rw [hs, ht]
      have ended := h.setFreq Config.eosSym 1
      exact .next
        { ended with
          status := congrArg (fun st : Status => { st with freqValid := true }) ended.status
          freq := fun _ => ended.counts
          tree := ended.toLike.tree
          code := ended.toLike.code }
    · rw [hs, ht]
      dsimp only
      have count : u.freqAt b = v.freqAt b := by simp only [State.freqAt, h.counts]
      rw [← count, ← h.cntW]
      split
      · exact ih (h.setFreq b _)
      · exact .next (h.toLike.raise .countOverflow)

theorem execCount_rel (h : s.Like t) : OutcomeRel State.Like (execCount s) (execCount t) := by
  refine unlessFaulted_rel h fun _ => ?_
  have passes : s.passes = t.passes := by simp only [State.passes, h.source]
  have start : s.invalidateFreq.zeroFreq.LikeCounting t.invalidateFreq.zeroFreq :=
    { h with
      status := congrArg (fun st : Status =>
        { st with freqValid := false, treeValid := false, treeBuilt := false, codeValid := false }) h.status
      counts := rfl, noTree := rfl, noCode := rfl }
  rw [← passes]
  exact releaseScratch_rel (countLoop_rel start _)

/-! ### huffman_tree_builder -/

/-- While BUILD builds: the same indices wait, and the nodes allocated or waiting are the same. -/
structure State.LikeBuilding (s t : State) : Prop extends s.SameCore t where
  freq   : s.status.freqValid = true → s.freq = t.freq
  noCode : s.status.codeValid = false
  nalloc : s.nalloc = t.nalloc
  pq     : s.pq = t.pq
  nodes  : ∀ i : Idx, i.toNat < s.nalloc.toNat ∨ i ∈ s.pq → nodeAlike true (s.nodeAt i) (t.nodeAt i) = true

theorem nodeAlike_refl (built : Bool) (e : NodeEntry) : nodeAlike built e e = true :=
  nodeAlike_iff.2 ⟨rfl, fun _ => rfl, fun _ => ⟨rfl, rfl⟩, fun _ => rfl⟩

theorem nodeAt_of_le {i : Idx} (h : 513 ≤ i.toNat) (s t : State) : s.nodeAt i = t.nodeAt i := by
  simp only [State.nodeAt, Vector.getElem?_eq_none h]

theorem State.LikeBuilding.insertNode (h : s.LikeBuilding t) {f g : NodeEntry → NodeEntry}
    (hfg : nodeAlike true (f (s.nodeAt s.nalloc)) (g (t.nodeAt t.nalloc)) = true) :
    ((s.allocNode f).insertPq s.nalloc).LikeBuilding ((t.allocNode g).insertPq t.nalloc) := by
  have nodes (i : Idx) (hi : i = s.nalloc ∨ i.toNat < s.nalloc.toNat ∨ i ∈ s.pq) :
      nodeAlike true ((s.setNode s.nalloc (f (s.nodeAt s.nalloc))).nodeAt i)
        ((t.setNode t.nalloc (g (t.nodeAt t.nalloc))).nodeAt i) = true := by
    rw [nodeAt_setNode, nodeAt_setNode, ← h.nalloc]
    by_cases hin : s.nalloc = i ∧ s.nalloc.toNat < 513
    · rw [if_pos hin, if_pos hin]
      exact h.nalloc ▸ hfg
    · rw [if_neg hin, if_neg hin]
      rcases hi with rfl | hi
      · rw [nodeAt_of_le (by simpa using hin) s t]
        exact nodeAlike_refl _ _
      · exact h.nodes i hi
  exact
    { h with
      nalloc := congrArg (· + 1) h.nalloc
      pq := by rw [insertPq_pq, insertPq_pq, allocNode_pq, allocNode_pq, h.pq, h.nalloc]
      nodes := fun i hi => nodes i (by
        have le : (s.nalloc + 1).toNat ≤ s.nalloc.toNat + 1 := by rw [BitVec.toNat_add]; exact Nat.mod_le _ _
        rw [insertPq_pq, List.mem_append, List.mem_singleton] at hi
        rcases hi with hi | hi | hi
        · by_cases heq : i = s.nalloc
          · exact .inl heq
          · have ne : i.toNat ≠ s.nalloc.toNat := fun e => heq (BitVec.eq_of_toNat_eq e)
            have lt : i.toNat < (s.nalloc + 1).toNat := hi
            exact .inr (.inl (by omega))
        · exact .inr (.inr hi)
        · exact .inl hi) }

theorem State.LikeBuilding.addLeaf (h : s.LikeBuilding t) (sym : Sym) (w : Nat) :
    (addLeaf sym w s).LikeBuilding (addLeaf sym w t) :=
  h.insertNode (nodeAlike_iff.2 ⟨rfl, fun _ => rfl, nofun, fun _ => rfl⟩)

theorem State.LikeBuilding.addLeaves (h : s.LikeBuilding t) (k : Nat) (counts : List Nat) :
    (addLeaves k counts s).LikeBuilding (addLeaves k counts t) := by
  induction counts generalizing k s t with
  | nil => exact h
  | cons n counts ih =>
    unfold Machine.addLeaves
    split
    · exact ih (h.addLeaf _ _) _
    · exact ih h _

/-- Which index has the least key is decided by the weights (R132). -/
theorem leastOf_congr {is : List Idx} (h : ∀ i ∈ is, (s.nodeAt i).weight = (t.nodeAt i).weight) :
    s.leastOf is = t.leastOf is := by
  induction is with
  | nil => rfl
  | cons i is ih =>
    have tail := ih fun j hj => h j (List.mem_cons_of_mem _ hj)
    unfold State.leastOf
    rw [← tail]
    cases hl : s.leastOf is with
    | none => rfl
    | some j =>
      have hj := h j (List.mem_cons_of_mem _ (leastOf_mem s hl))
      have same : s.before j i = t.before j i := by
        simp only [State.before, hj, h i List.mem_cons_self]
      dsimp only
      rw [same]

theorem removeMin_rel (h : s.LikeBuilding t) :
    (s.removeMin = none ∧ t.removeMin = none) ∨
      ∃ i u v, s.removeMin = some (i, u) ∧ t.removeMin = some (i, v) ∧ u.LikeBuilding v ∧
        u.node = s.node ∧ v.node = t.node ∧ nodeAlike true (s.nodeAt i) (t.nodeAt i) = true := by
  have least : s.leastOf s.pq = t.leastOf t.pq := by
    rw [← h.pq]
    exact leastOf_congr fun i hi => (nodeAlike_iff.1 (h.nodes i (.inr hi))).2.2.2 rfl
  cases hl : s.leastOf s.pq with
  | none => exact .inl ⟨by simp only [State.removeMin, hl], by simp only [State.removeMin, ← least, hl]⟩
  | some i =>
    have mem := leastOf_mem s hl
    refine .inr ⟨i, _, _, removeMin_of_leastOf hl, removeMin_of_leastOf (least ▸ hl), ?_, rfl, rfl,
      h.nodes i (.inr mem)⟩
    exact
      { h with
        pq := congrArg (List.erase · i) h.pq
        nodes := fun j hj => h.nodes j (hj.imp_right List.mem_of_mem_erase) }

theorem nodeAt_congr (h : t.node = s.node) (i : Idx) : t.nodeAt i = s.nodeAt i := by
  simp only [State.nodeAt, h]

theorem mergeLoop_rel (h : s.LikeBuilding t) (passes : Nat) :
    OutcomeRel State.LikeBuilding (mergeLoop passes s) (mergeLoop passes t) := by
  induction passes generalizing s t with
  | zero => exact .fault _
  | succ passes ih =>
    unfold mergeLoop
    rw [← h.pq]
    split
    · exact .next h
    · rcases removeMin_rel h with ⟨hs, ht⟩ | ⟨a, u, v, hs, ht, h₁, hu, hv, ha⟩
      · rw [hs, ht]
        exact .fault _
      · rw [hs, ht]
        dsimp only
        rcases removeMin_rel h₁ with ⟨hs, ht⟩ | ⟨b, w, x, hs, ht, h₂, hw, hx, hb⟩
        · rw [hs, ht]
          exact .fault _
        · rw [hs, ht]
          refine ih (h₂.insertNode (nodeAlike_iff.2 ⟨rfl, nofun, fun _ => ⟨rfl, rfl⟩, fun _ => ?_⟩))
          have wa : (w.nodeAt a).weight = (x.nodeAt a).weight := by
            rw [nodeAt_congr (hw.trans hu), nodeAt_congr (hx.trans hv)]
            exact (nodeAlike_iff.1 ha).2.2.2 rfl
          have wb : (w.nodeAt b).weight = (x.nodeAt b).weight := by
            rw [nodeAt_congr hw, nodeAt_congr hx]
            exact (nodeAlike_iff.1 hb).2.2.2 rfl
          dsimp only
          rw [wa, wb]

theorem takeRoot_rel (h : s.LikeBuilding t) : OutcomeRel State.Like (takeRoot s) (takeRoot t) := by
  unfold takeRoot
  rcases removeMin_rel h with ⟨hs, ht⟩ | ⟨r, u, v, hs, ht, h, -⟩
  · rw [hs, ht]
    exact .fault _
  · rw [hs, ht]
    exact .next
      { h with
        status := congrArg (fun st : Status => { st with treeValid := true, treeBuilt := true }) h.status
        tree := fun _ => ⟨rfl, h.nalloc, fun i hi => h.nodes i (.inl hi)⟩
        code := fun hv => by
          have : u.status.codeValid = true := hv
          rw [h.noCode] at this
          cases this }

theorem execBuild_rel (h : s.Like t) : OutcomeRel State.Like (execBuild s) (execBuild t) := by
  refine unlessFaulted_rel h fun _ => requireFlags_rel h (by rw [h.status]) fun hv => ?_
  have freq : s.freq = t.freq := h.freq hv
  have start : ({ s.invalidateTree with nalloc := 0, pq := [] } : State).LikeBuilding
      { t.invalidateTree with nalloc := 0, pq := [] } :=
    { h with
      status := congrArg (fun st : Status => { st with treeValid := false, treeBuilt := false, codeValid := false })
        h.status
      noCode := rfl, nalloc := rfl, pq := rfl, nodes := by simp }
  have filler : (addFiller { s.invalidateTree with nalloc := 0, pq := [] }).LikeBuilding
      (addFiller { t.invalidateTree with nalloc := 0, pq := [] }) := by
    have same : emptyInput { t.invalidateTree with nalloc := 0, pq := [] } =
        emptyInput { s.invalidateTree with nalloc := 0, pq := [] } := by
      unfold emptyInput
      exact congrArg (fun v : Vector Nat 257 => (v.toList.take 256).all fun n => n == 0) freq.symm
    unfold addFiller
    rw [same]
    split
    · exact start.addLeaf _ _
    · exact start
  have placed : (placeLeaves s.invalidateTree).LikeBuilding (placeLeaves t.invalidateTree) := by
    have counts : t.invalidateTree.freq.toList = s.invalidateTree.freq.toList :=
      congrArg Vector.toList freq.symm
    unfold placeLeaves
    rw [counts]
    exact filler.addLeaves _ _
  exact releaseScratch_rel ((mergeLoop_rel placed _).andThen fun _ _ h => takeRoot_rel h)

end Sys2Proof.Machine
end

section
/-! SUPPORT. RDMAGIC and RDHDR in two runs (10_state.md R46, 43_header_codec.md R163, R164): both runs fetch the same token, and what RDHDR
has read so far is the same, but for the children of the nodes on `STK`, which are still to come. -/

namespace Sys2Proof.Machine

variable {s t : State} {stk : List Frame}

/-! ### Fetching a token -/

/-- Two fetches give the same instruction and states in the relation `R`, or end the operation with outcomes related by `Q`. -/
inductive FetchedRel (R Q : State → State → Prop) : Fetched → Fetched → Prop where
  | got (i : Instr) {s t : State} (h : R s t) : FetchedRel R Q (.got i s) (.got i t)
  | ended {o p : Outcome} (h : OutcomeRel Q o p) : FetchedRel R Q (.ended o) (.ended p)

theorem takeToken_rel {R Q : State → State → Prop} (h : FetchedRel R Q (fetchWire s) (fetchWire t))
    (hrun : ∀ i s t, R s t → OutcomeRel Q (runToken i s) (runToken i t)) :
    OutcomeRel Q (takeToken s) (takeToken t) := by
  unfold takeToken
  generalize fetchWire s = a, fetchWire t = b at h
  cases h with
  | got i h => exact hrun i _ _ h
  | ended h => exact h

/-! ### RDMAGIC -/

/-- While RDMAGIC waits for the magic. -/
structure State.LikeMagic (s t : State) : Prop extends s.Like t where
  magic : s.activity = .magic

theorem fetchMagic_rel (h : s.LikeMagic t) : FetchedRel State.LikeMagic State.Like (fetchMagic s) (fetchMagic t) := by
  unfold fetchMagic
  have read (src : Option Source) (trace : List PortEvent) :
      ({ s with source := src, trace := trace } : State).LikeMagic { t with source := src, trace := trace } :=
    { h.toLike.read src trace with magic := h.magic }
  rcases srcRead_same h.toSameCore read Config.magicW with
    ⟨r, hs, ht⟩ | ⟨u, v, h, hs, ht⟩ | ⟨b, -, u, v, h, hs, ht⟩ <;> rw [hs, ht]
  · exact .ended (.refused r)
  · exact .ended (.next (h.toLike.raise .illegalHeader))
  · dsimp only
    cases decode (.wire (bitsOf Config.magicW b)) with
    | ok i => exact .got i h
    | error e => exact .ended (.next (h.toLike.raise .illegalHeader))

theorem runToken_magic_rel (h : s.LikeMagic t) (i : Instr) : OutcomeRel State.Like (runToken i s) (runToken i t) := by
  have magic : t.activity = .magic := h.activity ▸ h.magic
  cases i with
  | wMagic =>
    simp only [runToken, execWMagic, h.magic, magic]
    exact .next { h.toLike with activity := rfl }
  | wInode =>
    simp only [runToken, execWInode, h.magic, magic]
    exact .refused _
  | wLeaf sym =>
    simp only [runToken, execWLeaf, h.magic, magic]
    exact .refused _
  | _ => exact .refused _

theorem execRdmagic_rel (h : s.Like t) : OutcomeRel State.Like (execRdmagic s) (execRdmagic t) := by
  refine unlessFaulted_rel h fun _ => ?_
  have start : (startMagic s).LikeMagic (startMagic t) := { h with activity := rfl, magic := rfl }
  exact takeToken_rel (fetchMagic_rel start) fun i _ _ h => runToken_magic_rel h i

/-! ### A tree that is still being read -/

/-- Two entries hold the same node; the children of an internal node need not be there yet while it is on `STK`. -/
def readAlike (pending : Prop) (a b : NodeEntry) : Prop :=
  a.kind = b.kind ∧ (a.kind = .leaf → a.sym = b.sym) ∧ (¬ pending → a.kind = .internal → a.left = b.left ∧ a.right = b.right)

/-- While RDHDR reads a tree: the entries below `NALLOC` are the same, those of the nodes on `STK` but for their children. -/
structure State.LikeReading (stk : List Frame) (s t : State) : Prop extends s.SameCore t where
  tree    : s.activity = .tree
  freq    : s.status.freqValid = true → s.freq = t.freq
  noTree  : s.status.treeValid = false
  noBuilt : s.status.treeBuilt = false
  noCode  : s.status.codeValid = false
  nalloc  : s.nalloc = t.nalloc
  nodes   : ∀ i : Idx, i.toNat < s.nalloc.toNat → readAlike (∃ f ∈ stk, f.idx = i) (s.nodeAt i) (t.nodeAt i)

/-- RDHDR waits for a token, with the same stack in both runs. -/
structure State.LikeWaiting (s t : State) : Prop extends State.LikeReading s.scratch.stk s t where
  stack : s.scratch.stk = t.scratch.stk

/-- How a token of a tree leaves the two runs: both wait for the next, or RDHDR has ended in both. -/
inductive State.LikeAfterToken (s t : State) : Prop where
  | waits (h : s.LikeWaiting t)
  | ended (h : s.Like t) (idle : s.activity = .idle)

theorem State.LikeReading.toLike (h : s.LikeReading stk t) : s.Like t :=
  { h with
    tree := fun hv => by rw [h.noTree] at hv; cases hv
    code := fun hv => by rw [h.noCode] at hv; cases hv }

theorem State.LikeWaiting.read (h : s.LikeWaiting t) (src : Option Source) (trace : List PortEvent) :
    ({ s with source := src, trace := trace } : State).LikeWaiting { t with source := src, trace := trace } :=
  { h with source := rfl, trace := rfl }

theorem raiseInTree_rel (h : s.Like t) (e : ErrKind) :
    OutcomeRel State.LikeAfterToken (raiseInTree e s) (raiseInTree e t) :=
  .next (.ended (h.raise e).freeScratch rfl)

theorem State.LikeReading.withScratch (h : s.LikeReading stk t) (a b : Scratch) :
    ({ s with scratch := a } : State).LikeReading stk { t with scratch := b } :=
  { h with }

theorem awaitNode_rel (h : s.LikeReading stk t) :
    OutcomeRel State.LikeAfterToken (awaitNode stk s) (awaitNode stk t) := by
  have count : t.nalloc.toNat = s.nalloc.toNat := by rw [h.nalloc]
  unfold awaitNode
  rw [count]
  split
  · exact .next (.waits { h.withScratch _ _ with stack := rfl })
  · exact raiseInTree_rel h.toLike .treeOverflow

/-- With an empty stack the trees are the same. -/
theorem State.LikeReading.sameNodes (h : s.LikeReading [] t) (i : Idx) (hi : i.toNat < s.nalloc.toNat) :
    nodeAlike false (s.nodeAt i) (t.nodeAt i) = true := by
  obtain ⟨kind, sym, children⟩ := h.nodes i hi
  exact nodeAlike_iff.2 ⟨kind, sym, children (by simp), nofun⟩

theorem endTree_rel (h : s.LikeReading [] t) (r : Idx) :
    OutcomeRel State.LikeAfterToken (endTree r s) (endTree r t) := by
  have whole : ({ s with root := r, activity := .idle } : State).validateReadTree.Like
      ({ t with root := r, activity := .idle } : State).validateReadTree :=
    { h with
      activity := rfl
      status := congrArg (fun st : Status => { st with treeValid := true }) h.status
      tree := fun _ => ⟨rfl, h.nalloc, fun i hi => by
        rw [validateReadTree_status, h.noBuilt]
        exact h.sameNodes i hi⟩
      code := h.toLike.code }
  exact .next (.ended whole.freeScratch rfl)

/-- The children of the node on the top of `STK` are written, and it is taken off. -/
theorem State.LikeReading.setChildren {p : Idx} {leftDone : Bool} (h : s.LikeReading (⟨p, leftDone⟩ :: stk) t) (l r : Idx) :
    (setChildren p l r s).LikeReading stk (setChildren p l r t) :=
  { h with
    nodes := fun i hi => by
      obtain ⟨kind, sym, children⟩ := h.nodes i hi
      rw [Machine.setChildren, Machine.setChildren, nodeAt_setNode, nodeAt_setNode]
      by_cases hp : p = i ∧ p.toNat < 513
      · rw [if_pos hp, if_pos hp, hp.1]
        exact ⟨kind, sym, fun _ _ => ⟨rfl, rfl⟩⟩
      · rw [if_neg hp, if_neg hp]
        by_cases heq : p = i
        · rw [nodeAt_of_le (s := s) (t := t) (by subst heq; simpa using hp)]
          exact ⟨rfl, fun _ => rfl, fun _ _ => ⟨rfl, rfl⟩⟩
        · refine ⟨kind, sym, fun hstk => children ?_⟩
          rintro ⟨f, hf, rfl⟩
          rcases List.mem_cons.1 hf with rfl | hf
          · exact heq rfl
          · exact hstk ⟨f, hf, rfl⟩ }

/-- Which subtree a frame waits for does not matter. -/
theorem State.LikeReading.setLeftDone {p : Idx} {b : Bool} (h : s.LikeReading (⟨p, b⟩ :: stk) t) (c : Bool) :
    s.LikeReading (⟨p, c⟩ :: stk) t :=
  { h with nodes := fun i hi => by simpa using h.nodes i hi }

theorem returnSubtree_rel (h : s.LikeReading stk t) (i : Idx) :
    OutcomeRel State.LikeAfterToken (returnSubtree stk i s) (returnSubtree stk i t) := by
  induction stk generalizing i s t with
  | nil => exact endTree_rel h i
  | cons frame stk ih =>
    obtain ⟨p, leftDone⟩ := frame
    cases leftDone with
    | false => exact awaitNode_rel (h.setLeftDone true)
    | true => exact ih (h.setChildren _ _) p

/-! ### A token of a tree -/

/-- A node allocated is the same in both runs if what was written to it is; it may be put on the stack at once. -/
theorem State.LikeReading.allocNode {stk' : List Frame} (h : s.LikeReading stk t) (room : s.nalloc.toNat < 513)
    (hstk : ∀ f ∈ stk, f ∈ stk') {f : NodeEntry → NodeEntry}
    (hf : readAlike (∃ g ∈ stk', g.idx = s.nalloc) (f (s.nodeAt s.nalloc)) (f (t.nodeAt t.nalloc))) :
    (s.allocNode f).LikeReading stk' (t.allocNode f) :=
  { h with
    nalloc := congrArg (· + 1) h.nalloc
    nodes := fun i hi => by
      rw [allocNode_nalloc, toNat_succ_of_lt room] at hi
      rw [nodeAt_allocNode room, nodeAt_allocNode (h.nalloc ▸ room), ← h.nalloc]
      by_cases heq : i = s.nalloc
      · rw [if_pos heq, if_pos heq, heq]
        exact h.nalloc ▸ hf
      · have ne : i.toNat ≠ s.nalloc.toNat := fun e => heq (BitVec.eq_of_toNat_eq e)
        rw [if_neg heq, if_neg heq]
        obtain ⟨kind, sym, children⟩ := h.nodes i (by omega)
        refine ⟨kind, sym, fun hno => children ?_⟩
        rintro ⟨g, hg, rfl⟩
        exact hno ⟨g, hstk g hg, rfl⟩ }

theorem execWInode_rel (h : s.LikeWaiting t) : OutcomeRel State.LikeAfterToken (execWInode s) (execWInode t) := by
  have tree : t.activity = .tree := h.activity ▸ h.tree
  unfold execWInode
  rw [h.tree, tree]
  dsimp only
  rw [← h.nalloc, ← h.stack]
  split
  next room =>
    exact awaitNode_rel (h.toLikeReading.allocNode room (fun _ => List.mem_cons_of_mem _)
      ⟨rfl, nofun, fun hno => absurd ⟨_, List.mem_cons_self, rfl⟩ hno⟩)
  · exact raiseInTree_rel h.toLikeReading.toLike .treeOverflow

theorem execWLeaf_rel (h : s.LikeWaiting t) (sym : Nat) :
    OutcomeRel State.LikeAfterToken (execWLeaf sym s) (execWLeaf sym t) := by
  have tree : t.activity = .tree := h.activity ▸ h.tree
  unfold execWLeaf
  rw [h.tree, tree]
  dsimp only
  rw [← h.nalloc, ← h.stack]
  split
  next room =>
    have leaf := h.toLikeReading.allocNode (stk' := s.scratch.stk) room (fun _ => id)
      (f := fun e => { e with kind := .leaf, sym := symField sym }) ⟨rfl, fun _ => rfl, fun _ => nofun⟩
    exact returnSubtree_rel (leaf.withScratch _ _) _
  · exact raiseInTree_rel h.toLikeReading.toLike .treeOverflow

theorem runToken_tree_rel (h : s.LikeWaiting t) (i : Instr) :
    OutcomeRel State.LikeAfterToken (runToken i s) (runToken i t) := by
  cases i with
  | wMagic =>
    have tree : t.activity = .tree := h.activity ▸ h.tree
    simp only [runToken, execWMagic, h.tree, tree]
    exact .refused _
  | wInode => exact execWInode_rel h
  | wLeaf sym => exact execWLeaf_rel h sym
  | _ => exact .refused _

theorem fetchTreeToken_rel (h : s.LikeWaiting t) :
    FetchedRel State.LikeWaiting State.LikeAfterToken (fetchTreeToken s) (fetchTreeToken t) := by
  have malformed {s t : State} (h : s.LikeWaiting t) :
      FetchedRel State.LikeWaiting State.LikeAfterToken (.ended (raiseInTree .malformedTree s))
        (.ended (raiseInTree .malformedTree t)) :=
    .ended (raiseInTree_rel h.toLikeReading.toLike _)
  unfold fetchTreeToken
  rcases srcRead_same h.toSameCore h.read 1 with ⟨r, hs, ht⟩ | ⟨u, v, h, hs, ht⟩ | ⟨flag, -, u, v, h, hs, ht⟩ <;>
    rw [hs, ht]
  · exact .ended (.refused r)
  · exact malformed h
  · dsimp only
    split
    · cases decode (.wire (bitsOf 1 flag)) with
      | ok i => exact .got i h
      | error e => exact malformed h
    · rcases srcRead_same h.toSameCore h.read Config.symfW with
        ⟨r, hs, ht⟩ | ⟨u, v, h, hs, ht⟩ | ⟨b, -, u, v, h, hs, ht⟩ <;> rw [hs, ht]
      · exact .ended (.refused r)
      · have counted : ({ u with nalloc := u.nalloc + 1 } : State).Like { v with nalloc := v.nalloc + 1 } :=
          { h.toLikeReading.toLike with
            tree := fun hv => by
              have : u.status.treeValid = true := hv
              rw [h.noTree] at this
              cases this }
        exact .ended (raiseInTree_rel counted _)
      · dsimp only
        cases decode (.wire (bitsOf 1 flag ++ bitsOf Config.symfW b)) with
        | ok i => exact .got i h
        | error e => exact malformed h

/-! ### RDHDR -/

theorem tokenLoop_rel (h : s.LikeWaiting t) (passes : Nat) :
    OutcomeRel State.Like (tokenLoop passes s) (tokenLoop passes t) := by
  induction passes generalizing s t with
  | zero => exact .fault _
  | succ passes ih =>
    have fetch : FetchedRel State.LikeWaiting State.LikeAfterToken (fetchWire s) (fetchWire t) := by
      simp only [fetchWire, ← h.activity, h.tree]
      exact fetchTreeToken_rel h
    unfold tokenLoop
    refine (takeToken_rel fetch fun i _ _ h => runToken_tree_rel h i).andThen fun u v out => ?_
    cases out with
    | waits h =>
      rw [← h.activity, h.tree]
      exact ih h
    | ended h idle =>
      rw [← h.activity, idle]
      exact .next h

theorem execRdhdr_rel (h : s.Like t) : OutcomeRel State.Like (execRdhdr s) (execRdhdr t) := by
  refine unlessFaulted_rel h fun _ => tokenLoop_rel ?_ _
  exact
    { h with
      status := congrArg (fun st : Status => { st with treeValid := false, treeBuilt := false, codeValid := false })
        h.status
      activity := rfl, tree := rfl, noTree := rfl, noBuilt := rfl, noCode := rfl, nalloc := rfl, stack := rfl
      nodes := by simp }

/-! ### Commands -/

theorem runStep_rel (h : s.Like t) (m : MacroStep) : OutcomeRel State.Like (runStep m s) (runStep m t) := by
  cases m with
  | count => exact execCount_rel h
  | build => exact execBuild_rel h
  | gencode => exact execGencode_rel h
  | wrmagic => exact execWrmagic_rel h
  | wrhdr => exact execWrhdr_rel h
  | encode => exact execEncode_rel h
  | rdmagic => exact execRdmagic_rel h
  | rdhdr => exact execRdhdr_rel h
  | decode => exact execDecode_rel h

theorem State.Like.withSeq (h : s.Like t) (seq : List MacroStep) :
    ({ s with seq := seq } : State).Like { t with seq := seq } :=
  { h with seq := rfl }

theorem runSteps_rel (h : s.Like t) (ms : List MacroStep) : OutcomeRel State.Like (runSteps ms s) (runSteps ms t) := by
  induction ms generalizing s t with
  | nil => exact .next (h.withSeq [])
  | cons m rest ih =>
    unfold runSteps
    refine (runStep_rel (h.withSeq rest) m).andThen fun u v h => ?_
    rw [← h.status]
    split
    · exact .next h
    · exact ih h

/-- CLEAR leaves no flag that vouches for anything (R200). -/
theorem State.Like.clear (h : s.Like t) : (returnFromFault s).Like (returnFromFault t) :=
  { h with status := rfl, err := rfl, freq := nofun, tree := nofun, code := nofun }

theorem exec_rel (h : s.Like t) {i : Instr} (hi : isCommand i = true) : OutcomeRel State.Like (exec i s) (exec i t) := by
  cases i with
  | clear => exact .next h.clear
  | count => exact runStep_rel h .count
  | build => exact runStep_rel h .build
  | gencode => exact runStep_rel h .gencode
  | wrmagic => exact runStep_rel h .wrmagic
  | wrhdr => exact runStep_rel h .wrhdr
  | encode => exact runStep_rel h .encode
  | rdmagic => exact runStep_rel h .rdmagic
  | rdhdr => exact runStep_rel h .rdhdr
  | decode => exact runStep_rel h .decode
  | compress => exact unlessFaulted_rel h fun _ => runSteps_rel h compressSteps
  | decompress => exact unlessFaulted_rel h fun _ => runSteps_rel h decompressSteps
  | wMagic | wInode | wLeaf => cases hi

/-- Settles O60: the two runs of each command stay in `State.Like`, which is `State.alike` part by part. -/
theorem unwrittenStateIsNeverRead : Obligations.UnwrittenStateIsNeverRead := by
  intro i s t hi h
  exact outcomeAlike_of_rel (exec_rel (alike_iff.1 h) hi)

end Sys2Proof.Machine
end

section
/-! SUPPORT. What a port transaction answers, told by the bits that stand next in the source and by the value written (20_memory.md
R61, R64, R68). -/

namespace Sys2Proof.Machine

variable {s : State}

/-! ### The source -/

section Source

variable {src : Source} {n : Nat} (hs : s.source = some src)
include hs

theorem srcRead_of_short (h0 : n ≠ 0) (h32 : n ≤ 32) (hb : src.eos = true ∨ src.bits.length < src.pos + n) :
    srcRead n s = .noData { s with
      source := some { src with eos := true }, trace := s.trace ++ [.srcRead n none] } := by
  rcases srcRead_of_bound hs h0 h32 with ⟨v, -, -, hr⟩ | hr
  · obtain ⟨src', hs', -, -, heos, hle, -, -⟩ := srcRead_eq_data hr
    cases hs.symm.trans hs'
    rcases hb with hb | hb
    · exact absurd hb (by simp [heos])
    · omega
  · exact hr

theorem srcRead_of_next (h0 : n ≠ 0) (h32 : n ≤ 32) (heos : src.eos = false) {p rest : Bits}
    (hp : src.bits.drop src.pos = p ++ rest) (hn : p.length = n) :
    srcRead n s = .data (intOf p) { s with
      source := some { src with pos := src.pos + n }, trace := s.trace ++ [.srcRead n (some (intOf p))] } := by
  rcases srcRead_of_bound hs h0 h32 with ⟨v, -, -, hr⟩ | hr
  · obtain ⟨src', hs', -, -, -, -, hv, -⟩ := srcRead_eq_data hr
    cases hs.symm.trans hs'
    rw [hp, List.take_left' hn] at hv
    rw [hr, hv]
  · obtain ⟨src', hs', -, -, hb, -⟩ := srcRead_eq_noData hr
    cases hs.symm.trans hs'
    have enough := congrArg List.length hp
    simp only [List.length_drop, List.length_append] at enough
    simp only [heos, Bool.false_eq_true, false_or] at hb
    omega

end Source

/-- Settles O15: the premises of the clauses are those of `srcRead`'s and `srcReset`'s own cases. -/
theorem srcReadAllOrNothing : Obligations.SrcReadAllOrNothing := by
  intro s src n hs h1 h32
  have h0 : n ≠ 0 := Nat.ne_of_gt h1
  refine ⟨srcRead_of_short hs h0 h32, fun heos p rest hp hn => ?_, fun hr => ?_, fun second hr => ?_⟩
  · exact ⟨srcRead_of_next hs h0 h32 heos hp hn, hn ▸ intOf_lt p⟩
  · rw [srcReset_of_bound hs, rewound_of_unchanged hr]
  · rw [srcReset_of_bound hs, Source.rewound, hr, Option.getD_some]

/-! ### The sink -/

/-- Two strings end to end are the bits of one number, the first string's in front (R12, R68). -/
theorem bitsOf_append_bitsOf (m n x v : Nat) : bitsOf m x ++ bitsOf n v = bitsOf (m + n) (x * 2 ^ n + v % 2 ^ n) := by
  have high : (x * 2 ^ n + v % 2 ^ n) / 2 ^ n = x := by
    rw [Nat.mul_comm, Nat.mul_add_div (by positivity), Nat.div_eq_of_lt (Nat.mod_lt v (by positivity)), Nat.add_zero]
  have low : bitsOf n (x * 2 ^ n + v % 2 ^ n) = bitsOf n v := by
    rw [← bitsOf_mod, Nat.mul_add_mod_self_right, Nat.mod_mod, bitsOf_mod]
  rw [bitsOf_add, high, low]

/-- Settles O16: only the low `n` bits of the value are written, and they stand below those of an earlier write. -/
theorem sinkWriteAppendsLowBits : Obligations.SinkWriteAppendsLowBits := by
  intro s snk n v hs hc h1 h32
  refine ⟨?_, bitsOf_length n v, intOf_bitsOf n v, fun m x => bitsOf_append_bitsOf m n x v⟩
  rw [bitsOf_mod]
  exact sinkWrite_of_open hs hc (Nat.ne_of_gt h1) h32 v

end Sys2Proof.Machine
end

section
/-! SUPPORT. The token that stands next in the source, and the step that takes it (30_encoding.md R90, R94 to R96; 43_header_codec.md
R163, R164). -/

namespace Sys2Proof.Machine

/-! ### What the wire decoder accepts -/

/-- A token is one of the three patterns of R94 to R96, told from the others by its instruction. -/
theorem decode_wire_eq_ok {tok : Bits} {i : Instr} (h : decode (.wire tok) = .ok i) :
    (tok.length = 32 ∧ i = .wMagic) ∨ (tok = [false] ∧ i = .wInode) ∨
      ∃ field : Bits, field.length = 9 ∧ tok = true :: field ∧ i = .wLeaf (intOf field) := by
  simp only [decode, decodeWire] at h
  split at h
  · cases h
    exact .inr (.inl ⟨‹_›, rfl⟩)
  · split at h
    · split at h <;> cases h
      exact .inl ⟨‹_›, rfl⟩
    · split at h
      · split at h <;> cases h
        exact .inr (.inr ⟨_, ‹_›, rfl, rfl⟩)
      · cases h

/-! ### Fetching the token -/

section Next

variable {s : State} {src : Source} {rest : Bits} (hs : s.source = some src) (heos : src.eos = false)
include hs heos

theorem fetchMagic_of_next {tok : Bits} {i : Instr} (hp : src.bits.drop src.pos = tok ++ rest) (hlen : tok.length = 32)
    (hd : decode (.wire tok) = .ok i) :
    fetchMagic s = .got i { s with
      source := some { src with pos := src.pos + 32 }, trace := s.trace ++ [.srcRead 32 (some (intOf tok))] } := by
  have bits : bitsOf 32 (intOf tok) = tok := by rw [← hlen, bitsOf_intOf]
  simp only [fetchMagic, Config.magicW, srcRead_of_next hs (by decide) (by decide) heos hp hlen, bits, hd]

theorem fetchTreeToken_of_inode (hp : src.bits.drop src.pos = [false] ++ rest) :
    fetchTreeToken s = .got .wInode { s with
      source := some { src with pos := src.pos + 1 }, trace := s.trace ++ [.srcRead 1 (some 0)] } := by
  rw [fetchTreeToken, srcRead_of_next hs (n := 1) (by decide) (by decide) heos hp rfl]
  rfl

theorem fetchTreeToken_of_leaf {field : Bits} (hp : src.bits.drop src.pos = true :: field ++ rest)
    (hlen : field.length = 9) :
    fetchTreeToken s = .got (.wLeaf (intOf field)) { s with
      source := some { src with pos := src.pos + 10 }
      trace := s.trace ++ [.srcRead 1 (some 1), .srcRead 9 (some (intOf field))] } := by
  have flag := srcRead_of_next hs (n := 1) (by decide) (by decide) heos (p := [true]) hp rfl
  have fieldNext : src.bits.drop (src.pos + 1) = field ++ rest := by
    rw [← List.drop_drop, hp]
    rfl
  have symbol (t : State) (ht : t.source = some { src with pos := src.pos + 1 }) :=
    srcRead_of_next ht (n := 9) (by decide) (by decide) heos fieldNext hlen
  have leaf : decode (.wire (bitsOf 1 1 ++ bitsOf 9 (intOf field))) = .ok (.wLeaf (intOf field)) := by
    rw [decode_leaf, Nat.mod_eq_of_lt (hlen ▸ intOf_lt field)]
  have one : intOf [true] = 1 := rfl
  rw [fetchTreeToken, flag]
  simp only [one]
  rw [if_neg (by decide), symbol _ rfl]
  simp only [leaf, List.append_assoc, List.cons_append, List.nil_append]

end Next

/-! ### The step -/

theorem step_of_magic {s : State} (ha : s.activity = .magic) : step s = runFetched (fetchMagic s) := by
  simp only [step, fetchWire, ha]

theorem step_of_tree {s : State} (ha : s.activity = .tree) : step s = runFetched (fetchTreeToken s) := by
  simp only [step, fetchWire, ha]

/-- Settles O5: RDMAGIC waits for the 32 bits of the magic, RDHDR for one of the two tokens of a tree. -/
theorem stepRunsAwaitedToken : Obligations.StepRunsAwaitedToken := by
  intro s src tok rest i hs heos hp hd hw
  obtain ⟨hlen, rfl⟩ | ⟨rfl, rfl⟩ | ⟨field, hlen, rfl, rfl⟩ := decode_wire_eq_ok hd
  · have ha : s.activity = .magic := by simpa using hw
    rw [step_of_magic ha, fetchMagic_of_next hs heos hp hlen hd, hlen]
    rfl
  · have ha : s.activity = .tree := by simpa using hw
    rw [step_of_tree ha, fetchTreeToken_of_inode hs heos hp]
    rfl
  · have ha : s.activity = .tree := by simpa using hw
    rw [step_of_tree ha, fetchTreeToken_of_leaf hs heos hp hlen, List.length_cons, hlen]
    rfl

end Sys2Proof.Machine
end

section
/-! SUPPORT. The codes of the commands and the patterns of the wire tokens (30_encoding.md R92, R94 to R96, R104):
each is the encoding of the one instruction it decodes to. -/

namespace Sys2Proof.Machine

/-! ### Commands -/

/-- The codes `0xC` to `0xF` are no command (R104). -/
theorem decodeCmd_reserved {op : BitVec 4} (h : 12 ≤ op.toNat) : decodeCmd op = .error (.reservedCommand op) := by
  have lt : op.toNat < 16 := op.isLt
  unfold decodeCmd
  generalize op.toNat = n at h lt
  interval_cases n <;> rfl

/-- The other twelve codes are a command each, whose encoding they are (R92). -/
theorem decodeCmd_command {op : BitVec 4} (h : op.toNat < 12) :
    ∃ i, decodeCmd op = .ok i ∧ isCommand i = true ∧ encode i = .cmd op := by
  have code {n : Nat} (hn : op.toNat = n) : Encoded.cmd (BitVec.ofNat 4 n) = .cmd op := by
    rw [← hn, BitVec.ofNat_toNat, BitVec.setWidth_eq]
  generalize hn : op.toNat = n at h
  unfold decodeCmd
  rw [hn]
  interval_cases n <;> exact ⟨_, rfl, rfl, code hn⟩

theorem wellFormed_of_isCommand {i : Instr} (h : isCommand i = true) : wellFormed i = true := by
  cases i with
  | wLeaf sym => cases h
  | _ => rfl

/-! ### Wire tokens -/

theorem decodeWire_wMagic : decodeWire (bitsOf 32 0xFACE8201) = .ok .wMagic := by
  have long : bitsOf 32 0xFACE8201 ≠ [false] := fun h => by simpa using congrArg List.length h
  unfold decodeWire
  rw [if_neg long, if_pos (bitsOf_length _ _), if_pos rfl]

theorem decodeWire_wLeaf {field : Bits} (h : field.length = 9) :
    decodeWire (true :: field) = .ok (.wLeaf (intOf field)) := by
  have other : (true :: field).length ≠ Config.magicW := by simp [h]
  unfold decodeWire
  rw [if_neg (by simp), if_neg other]
  exact if_pos h

/-- The 32 bits of W.MAGIC are those of the magic (R94, R106). -/
theorem eq_magic_of_decodeWire {tok : Bits} (h : decodeWire tok = .ok .wMagic) : tok = bitsOf 32 0xFACE8201 := by
  unfold decodeWire at h
  split at h
  · cases h
  · split at h
    · split at h
      next heq => exact heq
      · cases h
    · split at h
      · split at h <;> cases h
      · cases h

/-! ### Decoding and encoding -/

/-- Settles O1: a command's code is looked up, a token's pattern is told by its first bit and its length. -/
theorem decodeOfEncode : Obligations.DecodeOfEncode := by
  intro i hi
  cases i with
  | wMagic => exact decodeWire_wMagic
  | wInode => rfl
  | wLeaf sym =>
    have field : intOf (bitsOf 9 sym) = sym := by
      rw [intOf_bitsOf]
      exact Nat.mod_eq_of_lt (of_decide_eq_true hi)
    exact (decodeWire_wLeaf (bitsOf_length 9 sym)).trans (by rw [field])
  | _ => rfl

/-- Settles O2: what decodes is one of the twelve codes or one of the three patterns. -/
theorem encodeOfDecode : Obligations.EncodeOfDecode := by
  intro e i h
  cases e with
  | cmd op =>
    change decodeCmd op = .ok i at h
    rcases Nat.lt_or_ge op.toNat 12 with hop | hop
    · obtain ⟨j, hj, hc, henc⟩ := decodeCmd_command hop
      cases hj.symm.trans h
      exact ⟨wellFormed_of_isCommand hc, henc⟩
    · rw [decodeCmd_reserved hop] at h
      cases h
  | wire tok =>
    obtain ⟨-, rfl⟩ | ⟨rfl, rfl⟩ | ⟨field, hlen, rfl, rfl⟩ := decode_wire_eq_ok h
    · exact ⟨rfl, congrArg Encoded.wire (eq_magic_of_decodeWire h).symm⟩
    · exact ⟨rfl, rfl⟩
    · have bits : bitsOf 9 (intOf field) = field := by rw [← hlen, bitsOf_intOf]
      have fits : intOf field < 2 ^ Config.symfW := by
        simpa only [hlen] using intOf_lt field
      exact ⟨decide_eq_true fits, congrArg (fun f => Encoded.wire (true :: f)) bits⟩

/-- Settles O3: the words are looked up in the table of R92 and matched with the patterns of R94 to R96. -/
theorem specWordsDecode : Obligations.SpecWordsDecode := by
  refine ⟨rfl, rfl, rfl, rfl, rfl, rfl, rfl, decodeWire_wLeaf rfl, decodeWire_wMagic, fun op => ?_⟩
  rcases Nat.lt_or_ge op.toNat 12 with hop | hop
  · obtain ⟨i, hi, hc, -⟩ := decodeCmd_command hop
    exact .inr ⟨hop, i, hi, hc⟩
  · exact .inl ⟨hop, decodeCmd_reserved hop⟩

end Sys2Proof.Machine
end

section
/-! SUPPORT. What one wire token does while its operation waits for it (30_encoding.md R94 to R96, 43_header_codec.md
R163 to R165). -/

namespace Sys2Proof.Machine

variable {s : State}

/-- Settles O36: W.MAGIC only ends the operation. -/
theorem magicTokenEndsRdmagic : Obligations.MagicTokenEndsRdmagic := by
  intro s ha
  simp only [exec, execWMagic, ha]

/-- With an entry to spare RDHDR waits for the next node (R171). -/
theorem awaitNode_of_room (stk : List Frame) (h : s.nalloc.toNat < 513) :
    awaitNode stk s = .next { s with scratch := { s.scratch with stk := stk } } :=
  if_pos h

/-- W.INODE allocates an internal node whose left subtree is wanted next (R164). -/
theorem execWInode_of_room (ha : s.activity = .tree) (h : s.nalloc.toNat < 512) :
    execWInode s = .next { s.allocNode (fun e => { e with kind := .internal, sym := 0 }) with
      scratch := { s.scratch with stk := ⟨s.nalloc, false⟩ :: s.scratch.stk } } := by
  have room : s.nalloc.toNat < 513 := by omega
  have next : (s.nalloc + 1).toNat < 513 := by rw [toNat_succ_of_lt room]; omega
  simp only [execWInode, ha, Config.nodeCap, if_pos room]
  exact awaitNode_of_room _ next

/-- Settles O37: with an entry to spare after it. -/
theorem inodeTokenAllocates : Obligations.InodeTokenAllocates :=
  fun _ => execWInode_of_room

/-- The leaf of W.LEAF, allocated, its symbol in `SYM` (R164, R25). -/
def State.allocLeaf (sym : Sym) (s : State) : State :=
  { s.allocNode (fun e => { e with kind := .leaf, sym := sym }) with scratch := { s.scratch with sym := sym } }

@[simp] theorem allocLeaf_nalloc (sym : Sym) (s : State) : (s.allocLeaf sym).nalloc = s.nalloc + 1 := rfl

/-- W.LEAF allocates its leaf and returns it to the node above (R164). -/
theorem execWLeaf_of_room (ha : s.activity = .tree) (h : s.nalloc.toNat < 513) (sym : Nat) :
    execWLeaf sym s = returnSubtree s.scratch.stk s.nalloc (s.allocLeaf (BitVec.ofNat 9 sym)) := by
  simp only [execWLeaf, ha]
  exact if_pos h

/-- The nodes `ps` whose right subtrees are read are completed, innermost first, the first by `i` (R164, R165). -/
def closeNodes (i : Idx) (ps : List Idx) (s : State) : State := (ps.zip (i :: ps)).foldl closeNode s

theorem closeNodes_cons (i p : Idx) (ps : List Idx) (s : State) :
    closeNodes i (p :: ps) s = closeNodes p ps (setChildren p (p + 1) i s) := rfl

@[simp] theorem closeNodes_nalloc (i : Idx) (ps : List Idx) (s : State) : (closeNodes i ps s).nalloc = s.nalloc := by
  induction ps generalizing i s with
  | nil => rfl
  | cons p ps ih => rw [closeNodes_cons, ih, setChildren_nalloc]

@[simp] theorem closeNodes_status (i : Idx) (ps : List Idx) (s : State) : (closeNodes i ps s).status = s.status := by
  induction ps generalizing i s with
  | nil => rfl
  | cons p ps ih => rw [closeNodes_cons, ih, setChildren_status]

/-- `get()` returns through the nodes it completes, to the one that is not whole or to RDHDR (R164). -/
theorem returnSubtree_closeNodes (ps : List Idx) (stk : List Frame) (i : Idx) (s : State) :
    returnSubtree (ps.map (fun p => { idx := p, leftDone := true }) ++ stk) i s =
      returnSubtree stk (ps.getLast?.getD i) (closeNodes i ps s) := by
  induction ps generalizing i s with
  | nil => rfl
  | cons p ps ih =>
    rw [List.map_cons, List.cons_append, returnSubtree, ih, ← closeNodes_cons, List.getLast?_cons, Option.getD_some]

/-- Settles O38: `get()` returns to RDHDR itself, or to the innermost node that still wants its right subtree. -/
theorem leafTokenAllocates : Obligations.LeafTokenAllocates := by
  intro s sym ps ha
  refine ⟨fun hstk room => ?_, fun q fs hstk room => ?_⟩
  · rw [← List.append_nil (ps.map _)] at hstk
    rw [exec, execWLeaf_of_room ha room, hstk, returnSubtree_closeNodes, returnSubtree,
      endTree, State.validateReadTree, closeNodes_status]
    exact ⟨_, _, rfl⟩
  · have next : (closeNodes s.nalloc ps (s.allocLeaf (BitVec.ofNat 9 sym))).nalloc.toNat < 513 := by
      rw [closeNodes_nalloc, allocLeaf_nalloc, toNat_succ_of_lt (by omega)]
      omega
    rw [exec, execWLeaf_of_room ha (by omega), hstk, returnSubtree_closeNodes, returnSubtree]
    exact awaitNode_of_room _ next

end Sys2Proof.Machine
end

section
/-! SUPPORT. Port transactions one after the other (20_memory.md R61, R64, R71): what a run of them adds to the ports
and to the trace, as one update of the state; the bits that stand next in the source. -/

namespace Sys2Proof.Machine

/-- The source `n` bits on, the bits `out` appended to the sink, the transactions `es` recorded. -/
def State.transfer (n : Nat) (out : Bits) (es : List PortEvent) (s : State) : State :=
  { s with
    source := s.source.map fun src => { src with pos := src.pos + n }
    sink := s.sink.map fun snk => { snk with out := snk.out ++ out }
    trace := s.trace ++ es }

/-- The bits that stand next in the source are these, to its end (R61). -/
def State.Ahead (bits : Bits) (s : State) : Prop :=
  ∃ src, s.source = some src ∧ src.eos = false ∧ src.bits.drop src.pos = bits

variable {s : State} {n m : Nat} {out p rest : Bits} {es : List PortEvent}

/-! ### Transfers -/

@[simp] theorem transfer_transfer (n m : Nat) (out out' : Bits) (es es' : List PortEvent) (s : State) :
    (s.transfer n out es).transfer m out' es' = s.transfer (n + m) (out ++ out') (es ++ es') := by
  simp only [State.transfer, Option.map_map, Function.comp_def, Nat.add_assoc, List.append_assoc]

theorem map_pos_add_zero (source : Option Source) :
    (source.map fun src => { src with pos := src.pos + 0 }) = source := by
  cases source <;> rfl

theorem map_out_append_nil (sink : Option Sink) : (sink.map fun snk => { snk with out := snk.out ++ [] }) = sink := by
  cases sink <;> simp

theorem transfer_zero_nil (s : State) : s.transfer 0 [] [] = s := by
  rw [State.transfer, map_pos_add_zero, map_out_append_nil, List.append_nil]

@[simp] theorem transfer_read_sink : (s.transfer n [] es).sink = s.sink := map_out_append_nil s.sink

@[simp] theorem transfer_write_source : (s.transfer 0 out es).source = s.source := map_pos_add_zero s.source

theorem transfer_source {src : Source} (hs : s.source = some src) :
    (s.transfer n out es).source = some { src with pos := src.pos + n } :=
  congrArg (Option.map _) hs

theorem transfer_sink {snk : Sink} (hk : s.sink = some snk) :
    (s.transfer n out es).sink = some { snk with out := snk.out ++ out } :=
  congrArg (Option.map _) hk

@[simp] theorem transfer_cur : (s.transfer n out es).cur = s.cur := rfl
@[simp] theorem transfer_freqAt (k : Nat) : (s.transfer n out es).freqAt k = s.freqAt k := rfl
@[simp] theorem transfer_codeAt (k : Nat) : (s.transfer n out es).codeAt k = s.codeAt k := rfl
@[simp] theorem transfer_readNode (i : Idx) : (s.transfer n out es).readNode i = s.readNode i := rfl

theorem State.Spans.transfer {i : Idx} {T : HTree} {is : List Nat} (h : s.Spans i T is) :
    (s.transfer n out es).Spans i T is :=
  h.congr fun _ _ => rfl

theorem State.SinkOpen.transfer (h : s.SinkOpen) : (s.transfer n out es).SinkOpen := by
  obtain ⟨snk, hs, hc⟩ := h
  exact ⟨_, transfer_sink hs, hc⟩

theorem State.Ahead.transfer (h : s.Ahead (p ++ rest)) (hn : p.length = n) : (s.transfer n out es).Ahead rest := by
  obtain ⟨src, hs, heos, hp⟩ := h
  refine ⟨_, transfer_source hs, heos, ?_⟩
  rw [← List.drop_drop, hp, List.drop_left' hn]

/-- On a source and a sink that are bound. -/
theorem transfer_of_bound {src : Source} {snk : Sink} (hs : s.source = some src) (hk : s.sink = some snk) :
    s.transfer n out es = { s with
      source := some { src with pos := src.pos + n }
      sink := some { snk with out := snk.out ++ out }
      trace := s.trace ++ es } := by
  simp only [State.transfer, hs, hk, Option.map_some]

theorem transfer_read {src : Source} (hs : s.source = some src) :
    s.transfer n [] es = { s with source := some { src with pos := src.pos + n }, trace := s.trace ++ es } := by
  rw [State.transfer, map_out_append_nil, hs, Option.map_some]

theorem transfer_write {snk : Sink} (hk : s.sink = some snk) :
    s.transfer 0 out es = { s with sink := some { snk with out := snk.out ++ out }, trace := s.trace ++ es } := by
  rw [State.transfer, map_pos_add_zero, hk, Option.map_some]

/-! ### One transaction -/

theorem srcRead_of_ahead (h : s.Ahead (p ++ rest)) (hn : p.length = n) (h0 : n ≠ 0) (h32 : n ≤ 32) :
    srcRead n s = .data (intOf p) (s.transfer n [] [.srcRead n (some (intOf p))]) := by
  obtain ⟨src, hs, heos, hp⟩ := h
  rw [srcRead_of_next hs h0 h32 heos hp hn, transfer_read hs]

theorem sinkWrite_transfer (h : s.SinkOpen) (h0 : n ≠ 0) (h32 : n ≤ 32) (v : Nat) :
    sinkWrite n v s = .next (s.transfer 0 (bitsOf n v) [.sinkWrite n v]) := by
  obtain ⟨snk, hs, hc⟩ := h
  rw [sinkWrite_of_open hs hc h0 h32, transfer_write hs]

end Sys2Proof.Machine
end

section
/-! SUPPORT. The operations that only write (43_header_codec.md R160, R161, 44_payload_encoder.md R181), on an open sink: the bits
they append and the transactions they issue. -/

namespace Sys2Proof.Machine

variable {s : State}

/-! ### WRMAGIC -/

theorem execWrmagic_transfer (hr : s.status.faulted = false) (ho : s.SinkOpen) :
    execWrmagic s = .next (s.transfer 0 (bitsOf 32 0xFACE8201) [.sinkWrite 32 0xFACE8201]) := by
  rw [execWrmagic, unlessFaulted_ready hr]
  exact sinkWrite_transfer ho (by decide) (by decide) _

/-- Settles O27: one write of the sink, which is open. -/
theorem wrmagicWritesMagic : Obligations.WrmagicWritesMagic := by
  intro s snk hr hs hc
  rw [exec, execWrmagic_transfer hr ⟨snk, hs, hc⟩, transfer_write hs]

/-! ### WRHDR -/

/-- `put` writes the header of the tree below a node (R161, R99). -/
theorem putTree_transfer {T : HTree} {i : Idx} {is : List Nat} (h : s.Spans i T is) (ho : s.SinkOpen) {depth : Nat}
    (hd : T.depth < depth) : putTree depth i s = .next (s.transfer 0 T.hdr T.writes) := by
  induction T generalizing s i is depth with
  | leaf x =>
    obtain ⟨depth, rfl⟩ := Nat.exists_eq_add_one.2 hd
    cases h with
    | leaf he hk =>
      simp only [putTree, he, hk, sinkWrite_transfer ho (n := 1) (by decide) (by decide), andThen_next, Config.symfW,
        sinkWrite_transfer ho.transfer (n := 9) (by decide) (by decide), transfer_transfer]
      rfl
  | node l r hl hr =>
    simp only [HTree.depth] at hd
    obtain ⟨depth, rfl⟩ := Nat.exists_eq_add_one.2 (Nat.zero_lt_of_lt hd)
    cases h with
    | node he hk hls hrs =>
      simp only [putTree, he, hk, sinkWrite_transfer ho (n := 1) (by decide) (by decide), andThen_next,
        hl hls.transfer ho.transfer (depth := depth) (by omega),
        hr hrs.transfer ho.transfer (depth := depth) (by omega), transfer_transfer]
      rfl

theorem execWrhdr_transfer {T : HTree} (hr : s.status.faulted = false) (hv : s.status.treeValid = true)
    (hT : s.tree = some T) (ho : s.SinkOpen) : execWrhdr s = .next (s.transfer 0 T.hdr T.writes).freeScratch := by
  obtain ⟨is, spans, depth⟩ := spans_of_subtree hT
  rw [execWrhdr, unlessFaulted_ready hr, hv, requireFlags_true, putTree_transfer spans ho depth, releaseScratch_next]

/-- Settles O28: `put` from the root, the scratch registers freed. -/
theorem wrhdrWritesTree : Obligations.WrhdrWritesTree := by
  intro s T snk hr hv hT hs hc
  rw [exec, execWrhdr_transfer hr hv hT ⟨snk, hs, hc⟩, transfer_write hs]
  exact ⟨_, _, rfl⟩

/-! ### `emit` -/

/-- The front piece and what is left make the code (R181). -/
theorem bitsOf_frontPiece {r : Nat} (hr : 32 < r) (val : BitVec 256) :
    bitsOf 32 (frontPiece r val) ++ bitsOf (r - 32) val.toNat = bitsOf r val.toNat := by
  have split : r = 32 + (r - 32) := by omega
  rw [frontPiece, bitsOf_mod, ← bitsOf_add, ← split]

theorem emitPieces_transfer (ho : s.SinkOpen) {pieces r : Nat} (h0 : r ≠ 0) (hp : r ≤ 32 * pieces) (val : BitVec 256) :
    emitPieces pieces r val s = .next (s.transfer 0 (bitsOf r val.toNat) (pieceWrites pieces r val)) := by
  induction pieces generalizing r s with
  | zero => omega
  | succ pieces ih =>
    unfold emitPieces pieceWrites
    simp only [Config.portMaxN]
    split
    next long =>
      rw [sinkWrite_transfer ho (by decide) (by decide), andThen_next, ih ho.transfer (by omega) (by omega),
        transfer_transfer, bitsOf_frontPiece long]
      rfl
    next short =>
      rw [sinkWrite_transfer ho h0 (by omega), lastPiece, bitsOf_mod]

theorem length_pieceWrites {pieces r : Nat} (h0 : r ≠ 0) (hp : r ≤ 32 * pieces) (val : BitVec 256) :
    (pieceWrites pieces r val).length = (r + 31) / 32 := by
  induction pieces generalizing r with
  | zero => omega
  | succ pieces ih =>
    unfold pieceWrites
    split
    · rw [List.length_cons, ih (by omega) (by omega)]
      omega
    · rw [List.length_singleton]
      omega

theorem len_le_pieces (c : CodeEntry) : c.len.toNat ≤ 32 * (c.len.toNat / 32 + 1) := by omega

theorem emit_transfer (ho : s.SinkOpen) {c : CodeEntry} (hc : 1 ≤ c.len.toNat) :
    emit c s = .next (s.transfer 0 (codeBits c) (codeWrites c)) :=
  emitPieces_transfer ho (Nat.ne_of_gt hc) (len_le_pieces c) c.val

/-- Settles O43: by the pieces that are left. -/
theorem emitCutsLongCodes : Obligations.EmitCutsLongCodes := by
  intro s snk c hs hc hlen
  refine ⟨?_, length_pieceWrites (Nat.ne_of_gt hlen) (len_le_pieces c) c.val, fun short fits => ?_⟩
  · rw [emit_transfer ⟨snk, hs, hc⟩ hlen, transfer_write hs]
  · rw [codeWrites, pieceWrites, if_neg (Nat.not_lt.2 short), lastPiece, Nat.mod_eq_of_lt fits]

end Sys2Proof.Machine
end

section
/-! SUPPORT. DECODE along the paths of a tree (45_payload_decoder.md R190, R191, R193, R194): the bits of one path
take the cursor from the root to that path's leaf. -/

namespace Sys2Proof.Machine

/-! ### Paths -/

/-- A path from a node on begins with the path to that node (R151). -/
theorem codes_eq_map (T : HTree) (p : Bits) : T.codes p = (T.codes []).map fun c => (c.1, p ++ c.2) := by
  induction T generalizing p with
  | leaf x => simp [HTree.codes]
  | node l r hl hr =>
    simp only [HTree.codes, List.map_append]
    rw [hl, hr, hl ([] ++ [false]), hr ([] ++ [true])]
    simp [Function.comp_def]

/-- The first edge of a path tells the subtree in which the rest of it is a path (R151). -/
theorem mem_codes_node {l r : HTree} {x : Sym} {p : Bits} (h : (x, p) ∈ (HTree.node l r).codes []) :
    ∃ b q, p = b :: q ∧ (x, q) ∈ (if b then r else l).codes [] := by
  rw [HTree.codes, codes_eq_map l, codes_eq_map r] at h
  rcases List.mem_append.1 h with h | h
  · obtain ⟨c, hc, heq⟩ := List.mem_map.1 h
    cases heq
    exact ⟨false, c.2, rfl, hc⟩
  · obtain ⟨c, hc, heq⟩ := List.mem_map.1 h
    cases heq
    exact ⟨true, c.2, rfl, hc⟩

variable {s : State} {passes : Nat} {rest : Bits}

theorem length_lt_passes {bits : Bits} (h : s.Ahead bits) : bits.length < s.passes := by
  obtain ⟨src, hs, -, rfl⟩ := h
  simp only [State.passes, hs, List.length_drop]
  omega

/-! ### One bit -/

/-- A write of `CUR` and of `STATUS.DSTATE` (R190, R191). -/
def State.moveCursor (c : Idx) (d : DState) (s : State) : State := { s with cur := c }.setDState d

/-- DECODE at a leaf of the symbol `x` (R190, R193, R194). -/
def decodeLeaf (passes : Nat) (c : Idx) (x : Sym) (s : State) : Outcome :=
  if x.toNat = 256 then .next (s.moveCursor c .terminated)
  else andThen (sinkWrite 8 x.toNat s) fun s => decodeLoop passes s.cursorToRoot

/-- DECODE at the node that the bit it has read leads to (R191). -/
def enterNode (passes : Nat) (i : Idx) (s : State) : Outcome :=
  match s.readNode i with
  | none => .fault .unwrittenNode
  | some e =>
    match e.kind with
    | .internal => decodeLoop passes (s.moveCursor i .descending)
    | .leaf => decodeLeaf passes i e.sym s

theorem decodeLoop_succ {here : NodeEntry} {b : Bool} (h : s.readNode s.cur = some here) (ha : s.Ahead (b :: rest)) :
    decodeLoop (passes + 1) s =
      enterNode passes (childOf here b.toNat) (s.transfer 1 [] [.srcRead 1 (some b.toNat)]) := by
  have bit : intOf [b] = b.toNat := by cases b <;> rfl
  have read := srcRead_of_ahead (p := [b]) ha (n := 1) rfl (by decide) (by decide)
  rw [bit] at read
  simp only [decodeLoop, read, transfer_cur, transfer_readNode, h]
  rfl

/-! ### One path -/

/-- The first bit of a path leads to the subtree that the rest of it goes through. -/
theorem decodeLoop_edge {l r : HTree} {is : List Nat} (h : s.Spans s.cur (.node l r) is) {x : Sym} {p : Bits}
    (hp : (x, p) ∈ (HTree.node l r).codes []) (ha : s.Ahead (p ++ rest)) :
    ∃ b q i us, p = b :: q ∧ s.Spans i (if b then r else l) us ∧ (x, q) ∈ (if b then r else l).codes [] ∧
      (s.transfer 1 [] [.srcRead 1 (some b.toNat)]).Ahead (q ++ rest) ∧
      decodeLoop (p.length + passes) s =
        enterNode (q.length + passes) i (s.transfer 1 [] [.srcRead 1 (some b.toNat)]) := by
  obtain ⟨b, q, rfl, hq⟩ := mem_codes_node hp
  cases h with
  | @node _ here _ _ ls rs he hk hl hr =>
    have length : (b :: q).length + passes = q.length + passes + 1 := by rw [List.length_cons]; omega
    refine ⟨b, q, childOf here b.toNat, if b then rs else ls, rfl, ?_, hq, ha.transfer (p := [b]) rfl,
      length ▸ decodeLoop_succ he ha⟩
    cases b
    · exact hl
    · exact hr

theorem enterNode_path {T : HTree} {i : Idx} {is : List Nat} (h : s.Spans i T is) {x : Sym} {p : Bits}
    (hp : (x, p) ∈ T.codes []) (ha : s.Ahead (p ++ rest)) :
    ∃ c e, s.readNode c = some e ∧ e.kind = .leaf ∧ e.sym = x ∧
      ∃ j d, enterNode (p.length + passes) i s =
          decodeLeaf passes c x ((s.transfer p.length [] (bitReads p)).moveCursor j d) := by
  induction T generalizing s i is p with
  | leaf y =>
    cases List.mem_singleton.1 hp
    cases h with
    | @leaf _ e he hk =>
      refine ⟨i, e, he, hk, rfl, s.cur, s.status.dstate, ?_⟩
      simp only [enterNode, he, hk, List.length_nil, Nat.zero_add, bitReads, List.map_nil, transfer_zero_nil]
      rfl
  | node l r hl hr =>
    cases h with
    | node he hk hls hrs =>
      have cursor : (s.moveCursor i .descending).Spans i (.node l r) _ := .node he hk (hls.congr fun _ _ => rfl)
        (hrs.congr fun _ _ => rfl)
      obtain ⟨b, q, k, us, rfl, hU, hq, next, step⟩ := decodeLoop_edge (passes := passes) cursor hp ha
      have below : ∃ c e, s.readNode c = some e ∧ e.kind = .leaf ∧ e.sym = x ∧
          ∃ j d, enterNode (q.length + passes) k
            ((s.moveCursor i .descending).transfer 1 [] [.srcRead 1 (some b.toNat)]) =
              decodeLeaf passes c x ((((s.moveCursor i .descending).transfer 1 []
                [.srcRead 1 (some b.toNat)]).transfer q.length [] (bitReads q)).moveCursor j d) := by
        cases b
        · exact hl hU.transfer hq next
        · exact hr hU.transfer hq next
      obtain ⟨c, e, hce, hck, hcx, j, d, hstep⟩ := below
      refine ⟨c, e, hce, hck, hcx, j, d, ?_⟩
      simp only [enterNode, he, hk]
      rw [step, hstep, transfer_transfer, List.length_cons, Nat.add_comm 1]
      rfl

/-- The bits of a path take DECODE from the root of the tree to the path's leaf (R190). -/
theorem decodeLoop_path {l r : HTree} {is : List Nat} (h : s.Spans s.cur (.node l r) is) {x : Sym} {p : Bits}
    (hp : (x, p) ∈ (HTree.node l r).codes []) (ha : s.Ahead (p ++ rest)) :
    ∃ c e, s.readNode c = some e ∧ e.kind = .leaf ∧ e.sym = x ∧
      ∃ j d, decodeLoop (p.length + passes) s =
        decodeLeaf passes c x ((s.transfer p.length [] (bitReads p)).moveCursor j d) := by
  obtain ⟨b, q, i, us, rfl, hU, hq, next, step⟩ := decodeLoop_edge (passes := passes) h hp ha
  obtain ⟨c, e, hce, hck, hcx, j, d, hstep⟩ := enterNode_path (passes := passes) hU.transfer hq next
  refine ⟨c, e, hce, hck, hcx, j, d, ?_⟩
  rw [step, hstep, transfer_transfer, List.length_cons, Nat.add_comm 1]
  rfl

/-! ### The payload -/

section Payload

variable {l r : HTree} {is : List Nat} (h : s.Spans s.root (.node l r) is)
include h

/-- A leaf that is not the sentinel's: its byte is written, and DECODE begins again at the root (R193). -/
theorem decodeLoop_symbol {x : Sym} {p : Bits} (hp : (x, p) ∈ (HTree.node l r).codes []) (hx : x ≠ 256)
    (ha : s.Ahead (p ++ rest)) (ho : s.SinkOpen) :
    decodeLoop (p.length + passes) s.cursorToRoot =
      decodeLoop passes
        (s.transfer p.length (bitsOf 8 x.toNat) (bitReads p ++ [.sinkWrite 8 x.toNat])).cursorToRoot := by
  have root : s.cursorToRoot.Spans s.root (.node l r) is := h.congr fun _ _ => rfl
  obtain ⟨c, e, -, -, -, j, d, step⟩ := decodeLoop_path (passes := passes) root hp ha
  have other : x.toNat ≠ 256 := fun heq => hx (BitVec.eq_of_toNat_eq heq)
  have wide : ((s.cursorToRoot.transfer p.length [] (bitReads p)).moveCursor j d).SinkOpen :=
    ho.transfer (n := p.length) (out := []) (es := bitReads p)
  rw [step, decodeLeaf, if_neg other, sinkWrite_transfer wide (by decide) (by decide), andThen_next]
  have both := transfer_transfer p.length 0 [] (bitsOf 8 x.toNat) (bitReads p) [.sinkWrite 8 x.toNat] s
  rw [List.nil_append, Nat.add_zero] at both
  rw [← both]
  rfl

theorem decodeLoop_symbols {ms : List (Sym × Bits)} (hms : ∀ m ∈ ms, m ∈ (HTree.node l r).codes [] ∧ m.1 ≠ 256)
    (ha : s.Ahead (pathBits ms ++ rest)) (ho : s.SinkOpen) :
    decodeLoop ((pathBits ms).length + passes) s.cursorToRoot =
      decodeLoop passes (s.transfer (pathBits ms).length (symbolBits ms) (symbolEvents ms)).cursorToRoot := by
  induction ms generalizing s with
  | nil =>
    have nothing : s.transfer (pathBits []).length (symbolBits []) (symbolEvents []) = s := transfer_zero_nil s
    rw [nothing, pathBits, List.flatMap_nil, List.length_nil, Nat.zero_add]
  | cons m ms ih =>
    obtain ⟨hm, hx⟩ := hms m List.mem_cons_self
    have path : pathBits (m :: ms) = m.2 ++ pathBits ms := rfl
    rw [path, List.append_assoc] at ha
    rw [path, List.length_append, Nat.add_assoc, decodeLoop_symbol h hm hx ha ho,
      ih h.transfer (fun n hn => hms n (List.mem_cons_of_mem _ hn)) (ha.transfer rfl) ho.transfer, transfer_transfer]
    rfl

end Payload

/-- A root that is no leaf: DECODE begins there (R190, R192). -/
theorem execDecode_internal {l r : HTree} {is : List Nat} (hr : s.status.faulted = false)
    (hv : s.status.treeValid = true) (h : s.Spans s.root (.node l r) is) :
    execDecode s = decodeLoop s.passes s.cursorToRoot := by
  cases h with
  | node he hk _ _ => simp only [execDecode, unlessFaulted_ready hr, hv, requireFlags_true, he, hk]

/-- DECODE on paths of the tree and then the sentinel's path ends there, at a leaf of the sentinel (R190, R194). -/
theorem execDecode_transfer {l r : HTree} {ms : List (Sym × Bits)} {q : Bits} (hr : s.status.faulted = false)
    (hv : s.status.treeValid = true) (hT : s.tree = some (.node l r)) (ho : s.SinkOpen)
    (hms : ∀ m ∈ ms, m ∈ (HTree.node l r).codes [] ∧ m.1 ≠ 256) (hq : (256, q) ∈ (HTree.node l r).codes [])
    (ha : s.Ahead (pathBits ms ++ (q ++ rest))) :
    ∃ c e, s.readNode c = some e ∧ e.kind = .leaf ∧ e.sym = 256 ∧
      execDecode s = .next ((s.transfer (pathBits ms ++ q).length (symbolBits ms)
        (symbolEvents ms ++ bitReads q)).moveCursor c .terminated) := by
  obtain ⟨is, spans, -⟩ := spans_of_subtree hT
  obtain ⟨passes, hpasses⟩ : ∃ passes, s.passes = (pathBits ms).length + (q.length + passes) := by
    have lt := length_lt_passes ha
    simp only [List.length_append] at lt
    exact ⟨s.passes - (pathBits ms).length - q.length, by omega⟩
  have root : (s.transfer (pathBits ms).length (symbolBits ms) (symbolEvents ms)).cursorToRoot.Spans s.root
      (.node l r) is := spans.congr fun _ _ => rfl
  obtain ⟨c, e, hce, hck, hcx, j, d, last⟩ := decodeLoop_path (passes := passes) root hq
    (ha.transfer rfl : (s.transfer (pathBits ms).length (symbolBits ms) (symbolEvents ms)).Ahead (q ++ rest))
  refine ⟨c, e, hce, hck, hcx, ?_⟩
  have both := transfer_transfer (pathBits ms).length q.length (symbolBits ms) [] (symbolEvents ms) (bitReads q) s
  rw [List.append_nil, ← List.length_append] at both
  have sentinel : (256 : Sym).toNat = 256 := rfl
  rw [execDecode_internal hr hv spans, hpasses, decodeLoop_symbols spans hms ha ho, last, decodeLeaf, if_pos sentinel, ← both]
  rfl

/-- Settles O44: the paths one after the other, and then the sentinel's. -/
theorem decodeWritesSymbols : Obligations.DecodeWritesSymbols := by
  intro s src snk l r ms q rest hr hv hT hs heos hk hc hms hq hp
  obtain ⟨c, e, hce, hck, hcx, heq⟩ := execDecode_transfer hr hv hT ⟨snk, hk, hc⟩ hms hq
    ⟨src, hs, heos, by rw [hp, List.append_assoc]⟩
  refine ⟨c, e, hce, hck, hcx, ?_⟩
  rw [exec, heq, transfer_of_bound hs hk, ← List.append_assoc]
  rfl

end Sys2Proof.Machine
end

section
/-! SUPPORT. RDMAGIC and RDHDR on a stream that holds what they read (43_header_codec.md R163 to R168): RDHDR reads
the header of a tree that fits into `NODE` as that tree, its nodes in pre-order numbers. -/

namespace Sys2Proof.Machine

variable {s t : State} {rest : Bits}

/-! ### RDMAGIC -/

/-- RDMAGIC takes the magic and records nothing (R163). -/
theorem execRdmagic_transfer (hr : s.status.faulted = false) (ha : s.Ahead (bitsOf 32 0xFACE8201 ++ rest)) :
    execRdmagic s =
      .next { s.transfer 32 [] [.srcRead 32 (some 0xFACE8201)] with activity := .idle } := by
  obtain ⟨src, hs, heos, hp⟩ := ha
  have number : intOf (bitsOf 32 0xFACE8201) = 0xFACE8201 := (intOf_bitsOf _ _).trans (by decide)
  have fetch := fetchMagic_of_next (s := startMagic s) hs heos hp (bitsOf_length _ _) decodeWire_wMagic
  rw [execRdmagic, unlessFaulted_ready hr, takeToken_got ((fetchWire_startMagic s).trans fetch), transfer_read hs, number]
  rfl

/-! ### Fetching a token -/

theorem fetchTreeToken_inode (ha : s.Ahead (false :: rest)) :
    fetchTreeToken s = .got .wInode (s.transfer 1 [] [.srcRead 1 (some 0)]) := by
  obtain ⟨src, hs, heos, hp⟩ := ha
  rw [fetchTreeToken_of_inode hs heos hp, transfer_read hs]

theorem fetchTreeToken_leaf {x : Sym} (ha : s.Ahead (true :: (bitsOf 9 x.toNat ++ rest))) :
    fetchTreeToken s =
      .got (.wLeaf x.toNat) (s.transfer 10 [] [.srcRead 1 (some 1), .srcRead 9 (some x.toNat)]) := by
  obtain ⟨src, hs, heos, hp⟩ := ha
  have number : intOf (bitsOf 9 x.toNat) = x.toNat := by
    rw [intOf_bitsOf]
    exact Nat.mod_eq_of_lt x.isLt
  rw [fetchTreeToken_of_leaf hs heos hp (bitsOf_length _ _), transfer_read hs, number]

theorem takeToken_of_tree (ha : s.activity = .tree) {i : Instr} (h : fetchTreeToken s = .got i t) :
    takeToken s = runToken i t :=
  takeToken_got (by rw [fetchWire, ha]; exact h)

/-! ### What reading a tree leaves -/

/-- The node array and the scratch registers written, an entry taken for each node of the tree, its header read. -/
def State.withTree (T : HTree) (node : Vector NodeEntry 513) (x : Scratch) (s : State) : State :=
  { s.transfer T.hdr.length [] T.reads with
    node := node, nalloc := s.nalloc + BitVec.ofNat 10 T.size, scratch := x }

/-- The tree stands in the entries from the old `NALLOC` on (R165); no other entry and no weight is written (R167). -/
structure State.HasRead (s : State) (T : HTree) (t : State) : Prop where
  frame   : ∃ node x, t = s.withTree T node x
  spans   : t.Spans s.nalloc T (List.range' s.nalloc.toNat T.size)
  others  : ∀ k, k < s.nalloc.toNat ∨ s.nalloc.toNat + T.size ≤ k → t.node[k]? = s.node[k]?
  weights : ∀ k : Nat, t.node[k]?.map NodeEntry.weight = s.node[k]?.map NodeEntry.weight

theorem nalloc_add_toNat {n : Nat} (h : s.nalloc.toNat + n ≤ 513) :
    (s.nalloc + BitVec.ofNat 10 n).toNat = s.nalloc.toNat + n := by
  rw [BitVec.toNat_add, BitVec.toNat_ofNat, Nat.add_mod_mod]
  exact Nat.mod_eq_of_lt (by omega)

/-- Reading a tree leaves the entries below it (R165). -/
theorem State.HasRead.readNode {T : HTree} (h : s.HasRead T t) (hn : s.nalloc.toNat + T.size ≤ 513) {j : Idx}
    (hj : j.toNat < s.nalloc.toNat) : t.readNode j = s.readNode j := by
  obtain ⟨node, x, rfl⟩ := h.frame
  have below : j.toNat < (s.nalloc + BitVec.ofNat 10 T.size).toNat := by rw [nalloc_add_toNat hn]; omega
  exact (if_pos below).trans ((h.others _ (.inl hj)).trans (if_pos hj).symm)

theorem State.HasRead.nalloc_toNat {T : HTree} (h : s.HasRead T t) (hn : s.nalloc.toNat + T.size ≤ 513) :
    t.nalloc.toNat = s.nalloc.toNat + T.size := by
  obtain ⟨node, x, rfl⟩ := h.frame
  exact nalloc_add_toNat hn

theorem State.HasRead.activity {T : HTree} (h : s.HasRead T t) : t.activity = s.activity := by
  obtain ⟨node, x, rfl⟩ := h.frame
  rfl

theorem State.HasRead.ahead {T : HTree} (h : s.HasRead T t) (ha : s.Ahead (T.hdr ++ rest)) : t.Ahead rest := by
  obtain ⟨node, x, rfl⟩ := h.frame
  exact ha.transfer (out := []) (es := T.reads) rfl

theorem setNode_other (s : State) {i : Idx} (e : NodeEntry) {k : Nat} (h : i.toNat ≠ k) :
    (s.setNode i e).node[k]? = s.node[k]? := by
  rw [setNode_node, Vector.getElem?_setIfInBounds_ne h]

theorem setNode_weight {i : Idx} {e : NodeEntry} (h : e.weight = (s.nodeAt i).weight) (k : Nat) :
    (s.setNode i e).node[k]?.map NodeEntry.weight = s.node[k]?.map NodeEntry.weight := by
  by_cases hk : i.toNat = k
  · subst hk
    rw [setNode_node, Vector.getElem?_setIfInBounds_self]
    split
    next hi =>
      rw [Option.map_some, h, State.nodeAt, Vector.getElem?_eq_getElem hi]
      rfl
    next hi => rw [Vector.getElem?_eq_none (Nat.not_lt.1 hi)]
  · rw [setNode_other s e hk]

theorem HTree.length_hdr_node (l r : HTree) : (HTree.node l r).hdr.length = 1 + l.hdr.length + r.hdr.length := by
  simp only [HTree.hdr, List.length_cons, List.length_append]
  omega

/-! ### The loop -/

/-- What the loop of RDHDR does after a token. -/
def afterToken (passes : Nat) (s : State) : Outcome :=
  match s.activity with
  | .tree => tokenLoop passes s
  | .idle | .magic => .next s

theorem tokenLoop_succ (passes : Nat) (s : State) :
    tokenLoop (passes + 1) s = andThen (takeToken s) (afterToken passes) := rfl

theorem afterToken_of_tree (ha : s.activity = .tree) (passes : Nat) : afterToken passes s = tokenLoop passes s := by
  rw [afterToken, ha]

/-- A leaf is read with its one token. -/
theorem hasRead_leaf (hn : s.nalloc.toNat < 513) (x : Sym) :
    s.HasRead (.leaf x)
      ((s.transfer 10 [] [.srcRead 1 (some 1), .srcRead 9 (some x.toNat)]).allocLeaf x) := by
  generalize hu : s.transfer 10 [] [.srcRead 1 (some 1), .srcRead 9 (some x.toNat)] = u
  have room : u.nalloc.toNat < 513 := by rw [← hu]; exact hn
  have leaf : (u.allocLeaf x).readNode u.nalloc = some { u.nodeAt u.nalloc with kind := .leaf, sym := x } := by
    have alloc := readNode_allocNode room (fun e => { e with kind := .leaf, sym := x }) u.nalloc
    rwa [if_pos rfl] at alloc
  constructor
  · rw [← hu]
    exact ⟨_, _, rfl⟩
  · rw [← hu] at leaf ⊢
    exact .leaf leaf rfl
  · intro k hk
    rw [← hu]
    exact setNode_other _ _ (by simp only [HTree.size] at hk; change s.nalloc.toNat ≠ k; omega)
  · intro k
    rw [← hu]
    exact setNode_weight (s := s) (e := { s.nodeAt s.nalloc with kind := .leaf, sym := x }) rfl k

/-- The state after the token of an internal node, its children still to be read (R164). -/
def State.openNode (x : Scratch) (s : State) : State :=
  { (s.transfer 1 [] [.srcRead 1 (some 0)]).allocNode (fun e => { e with kind := .internal, sym := 0 }) with
    scratch := x }

theorem openNode_readNode (hn : s.nalloc.toNat < 513) (x : Scratch) :
    (s.openNode x).readNode s.nalloc = some { s.nodeAt s.nalloc with kind := .internal, sym := 0 } := by
  have alloc := readNode_allocNode hn (fun e => { e with kind := .internal, sym := 0 }) s.nalloc
  rw [if_pos rfl] at alloc
  exact alloc

/-- A node is read with its token, its two subtrees, and the write of its children (R164). -/
theorem hasRead_node {l r : HTree} {x y : Scratch} {u : State} (hn : s.nalloc.toNat + (HTree.node l r).size ≤ 513)
    (hl : (s.openNode x).HasRead l t) (hr : ({ t with scratch := y } : State).HasRead r u) :
    s.HasRead (.node l r) (setChildren s.nalloc (s.nalloc + 1) t.nalloc u) := by
  simp only [HTree.size] at hn
  have room : s.nalloc.toNat < 513 := by omega
  have succ : (s.openNode x).nalloc.toNat = s.nalloc.toNat + 1 := toNat_succ_of_lt room
  have mid : t.nalloc.toNat = s.nalloc.toNat + 1 + l.size := by rw [hl.nalloc_toNat (by omega), succ]
  have fits : t.nalloc.toNat + r.size ≤ 513 := by omega
  constructor
  · obtain ⟨node₁, x₁, ht⟩ := hl.frame
    obtain ⟨node₂, x₂, hu⟩ := hr.frame
    have ports : ((s.transfer 1 [] [.srcRead 1 (some 0)]).transfer l.hdr.length [] l.reads).transfer r.hdr.length []
        r.reads = s.transfer (HTree.node l r).hdr.length [] (HTree.node l r).reads := by
      rw [transfer_transfer, transfer_transfer, HTree.length_hdr_node, Nat.add_assoc]
      rfl
    have index : s.nalloc + 1 + BitVec.ofNat 10 l.size + BitVec.ofNat 10 r.size =
        s.nalloc + BitVec.ofNat 10 (HTree.node l r).size := by
      rw [HTree.size, BitVec.ofNat_add, BitVec.ofNat_add, BitVec.add_assoc, BitVec.add_assoc, BitVec.add_assoc]
      rfl
    refine ⟨(setChildren s.nalloc (s.nalloc + 1) t.nalloc u).node, x₂, ?_⟩
    rw [State.withTree, ← ports, ← index, hu, ht]
    rfl
  · have here : u.readNode s.nalloc = some { s.nodeAt s.nalloc with kind := .internal, sym := 0 } := by
      rw [hr.readNode fits (by dsimp only; omega)]
      exact (hl.readNode (by omega) (by omega)).trans (openNode_readNode (by omega) x)
    have left : u.Spans (s.nalloc + 1) l (List.range' (s.nalloc.toNat + 1) l.size) := by
      rw [← succ]
      refine hl.spans.congr fun j hj => hr.readNode fits ?_
      have := List.mem_range'_1.1 hj
      dsimp only
      omega
    have right := hr.spans
    dsimp only at right
    rw [mid] at right
    have range : s.nalloc.toNat :: (List.range' (s.nalloc.toNat + 1) l.size ++
        List.range' (s.nalloc.toNat + 1 + l.size) r.size) = List.range' s.nalloc.toNat (HTree.node l r).size := by
      rw [List.range'_append_1, HTree.size, Nat.add_assoc, Nat.add_comm 1, List.range'_succ]
    rw [← range]
    exact spans_setChildren here rfl left right (by simp) (by simp; omega)
  · intro k hk
    simp only [HTree.size] at hk
    have ne : s.nalloc.toNat ≠ k := by omega
    calc (setChildren s.nalloc (s.nalloc + 1) t.nalloc u).node[k]?
        = u.node[k]? := setNode_other u _ ne
      _ = t.node[k]? := hr.others k (by dsimp only; omega)
      _ = (s.openNode x).node[k]? := hl.others k (by omega)
      _ = s.node[k]? := setNode_other s _ ne
  · intro k
    calc (setChildren s.nalloc (s.nalloc + 1) t.nalloc u).node[k]?.map NodeEntry.weight
        = u.node[k]?.map NodeEntry.weight :=
          setNode_weight (s := u) (e := { u.nodeAt s.nalloc with left := s.nalloc + 1, right := t.nalloc }) rfl k
      _ = t.node[k]?.map NodeEntry.weight := hr.weights k
      _ = (s.openNode x).node[k]?.map NodeEntry.weight := hl.weights k
      _ = s.node[k]?.map NodeEntry.weight :=
        setNode_weight (s := s) (e := { s.nodeAt s.nalloc with kind := .internal, sym := 0 }) rfl k

/-- RDHDR's loop takes the tokens of a tree and returns with it to the node above (R164, R165). -/
theorem tokenLoop_tree {T : HTree} (hact : s.activity = .tree) (hn : s.nalloc.toNat + T.size ≤ 513)
    (ha : s.Ahead (T.hdr ++ rest)) (passes : Nat) :
    ∃ t, s.HasRead T t ∧ tokenLoop (T.size + passes) s =
      andThen (returnSubtree s.scratch.stk s.nalloc t) (afterToken passes) := by
  induction T generalizing s passes rest with
  | leaf x =>
    simp only [HTree.size] at hn
    refine ⟨_, hasRead_leaf (by omega) x, ?_⟩
    have fetch := fetchTreeToken_leaf (s := s) (x := x) (rest := rest) ha
    rw [HTree.size, Nat.add_comm, tokenLoop_succ, takeToken_of_tree hact fetch, runToken,
      execWLeaf_of_room (s := s.transfer _ _ _) hact (by exact (by omega : s.nalloc.toNat < 513)), BitVec.ofNat_toNat,
      BitVec.setWidth_eq]
    rfl
  | node l r hl hr =>
    have fits := hn
    simp only [HTree.size] at hn
    have lpos := l.size_pos
    have rpos := r.size_pos
    have passes' : (HTree.node l r).size + passes = l.size + (r.size + passes) + 1 := by rw [HTree.size]; omega
    have ahead : (s.transfer 1 [] [.srcRead 1 (some 0)]).Ahead (l.hdr ++ (r.hdr ++ rest)) :=
      State.Ahead.transfer (p := [false]) (by rw [← List.append_assoc l.hdr]; exact ha) rfl
    generalize hx : ({ s.scratch with stk := ⟨s.nalloc, false⟩ :: s.scratch.stk } : Scratch) = x
    have token : takeToken s = .next (s.openNode x) := by
      rw [takeToken_of_tree hact (fetchTreeToken_inode ha), runToken,
        execWInode_of_room (s := s.transfer _ _ _) hact (by exact (by omega : s.nalloc.toNat < 512)), ← hx]
      rfl
    have room : s.nalloc.toNat < 513 := by omega
    have succ : (s.openNode x).nalloc.toNat = s.nalloc.toNat + 1 := toNat_succ_of_lt room
    obtain ⟨t, left, loop⟩ := hl (s := s.openNode x) hact (by omega) ahead (r.size + passes)
    have mid := left.nalloc_toNat (by omega)
    have stk : (s.openNode x).scratch.stk = ⟨s.nalloc, false⟩ :: s.scratch.stk := by rw [← hx]; rfl
    have wait : awaitNode (⟨s.nalloc, true⟩ :: s.scratch.stk) t = .next { t with scratch := _ } :=
      awaitNode_of_room _ (by omega)
    generalize hy : ({ t.scratch with stk := ⟨s.nalloc, true⟩ :: s.scratch.stk } : Scratch) = y at wait
    have hact' : ({ t with scratch := y } : State).activity = .tree := left.activity.trans hact
    obtain ⟨u, right, loop'⟩ := hr hact' (by dsimp only; omega) (left.ahead ahead) passes
    refine ⟨_, hasRead_node fits left right, ?_⟩
    rw [passes', tokenLoop_succ, token, andThen_next, afterToken_of_tree (s := s.openNode x) hact, loop, stk,
      returnSubtree, wait, andThen_next, afterToken_of_tree hact', loop', ← hy]
    rfl

/-- RDHDR on the header of a tree reads it from index 0 on (R164, R165). -/
theorem execRdhdr_hasRead {T : HTree} (hr : s.status.faulted = false) (hT : T.size ≤ 513) (ha : s.Ahead (T.hdr ++ rest)) :
    ∃ t, (startTree s).HasRead T t ∧
      execRdhdr s = .next ({ t with root := 0, activity := .idle } : State).validateReadTree.freeScratch := by
  obtain ⟨passes, hpasses⟩ : ∃ passes, Config.nodeCap.succ = T.size + passes := ⟨514 - T.size, by
    simp only [Config.nodeCap]; omega⟩
  obtain ⟨t, read, loop⟩ := tokenLoop_tree (s := startTree s) (rest := rest) rfl
    (by rw [startTree_nalloc]; simpa using hT) ha passes
  refine ⟨t, read, ?_⟩
  rw [execRdhdr, unlessFaulted_ready hr, hpasses, loop]
  rfl

/-- The state after RDHDR has read the header of a tree. -/
def State.afterHeader (T : HTree) (node : Vector NodeEntry 513) (x : Scratch) (d : Nat) (s : State) : State :=
  { s.transfer T.hdr.length [] T.reads with
    node := node
    nalloc := BitVec.ofNat 10 T.size
    root := 0
    status := { s.status with treeValid := true, treeBuilt := false, codeValid := false }
    activity := .idle
    scratch := x
    draws := d }

theorem afterHeader_source {src : Source} (hs : s.source = some src) (T : HTree) (node : Vector NodeEntry 513)
    (x : Scratch) (d : Nat) :
    (s.afterHeader T node x d).source = some { src with pos := src.pos + T.hdr.length } :=
  transfer_source (out := []) (es := T.reads) hs

theorem afterHeader_sink (T : HTree) (node : Vector NodeEntry 513) (x : Scratch) (d : Nat) (s : State) :
    (s.afterHeader T node x d).sink = s.sink :=
  transfer_read_sink (n := T.hdr.length) (es := T.reads)

/-- RDHDR reads the header of a tree as that tree (R168). -/
theorem execRdhdr_tree {T : HTree} (hr : s.status.faulted = false) (hT : T.size ≤ 513) (ha : s.Ahead (T.hdr ++ rest)) :
    ∃ node x d, execRdhdr s = .next (s.afterHeader T node x d) ∧ (s.afterHeader T node x d).tree = some T := by
  obtain ⟨t, read, heq⟩ := execRdhdr_hasRead hr hT ha
  have spans : (({ t with root := 0, activity := .idle } : State).validateReadTree.freeScratch).Spans 0 T
      (List.range' 0 T.size) := read.spans.congr fun _ _ => rfl
  have tree := spans.subtree_eq (spans.depth_lt_nodeCap List.nodup_range')
  obtain ⟨node, x, rfl⟩ := read.frame
  have after : ({ (startTree s).withTree T node x with root := 0, activity := .idle } :
      State).validateReadTree.freeScratch = s.afterHeader T node (freeScratchOf s.cntW s.draws) (s.draws + 1) := by
    have index : (startTree s).nalloc + BitVec.ofNat 10 T.size = BitVec.ofNat 10 T.size := BitVec.zero_add _
    rw [State.withTree, index]
    rfl
  rw [after] at heq tree
  exact ⟨node, _, _, heq, tree⟩

/-! ### DECOMPRESS -/

/-- A step that ends without a fault is followed by the rest of the macro (R109). -/
theorem runSteps_cons (m : MacroStep) (ms : List MacroStep) (s : State) (h : runStep m { s with seq := ms } = .next t)
    (ht : t.status.faulted = false) : runSteps (m :: ms) s = runSteps ms t := by
  rw [runSteps, h, andThen_next, ht, if_neg (by decide)]

/-- DECOMPRESS on the magic and a header goes on with DECODE from there (R202). -/
theorem execDecompress_header {T : HTree} (hr : s.status.faulted = false) (hT : T.size ≤ 513)
    (ha : s.Ahead (bitsOf 32 0xFACE8201 ++ (T.hdr ++ rest))) :
    ∃ node x d, ∃ u : State,
      u = (s.transfer 32 [] [.srcRead 32 (some 0xFACE8201)]).afterHeader T node x d ∧ u.tree = some T ∧
      u.Ahead rest ∧ execDecompress s = runSteps [.decode] { u with seq := [.decode] } := by
  have magic := execRdmagic_transfer (s := { s with seq := [.rdhdr, .decode] }) hr ha
  have ahead : (s.transfer 32 [] [.srcRead 32 (some 0xFACE8201)]).Ahead (T.hdr ++ rest) :=
    ha.transfer (bitsOf_length _ _)
  generalize hv : ({ State.transfer 32 [] [.srcRead 32 (some 0xFACE8201)] { s with seq := [.rdhdr, .decode] } with
    activity := .idle } : State) = v at magic
  have ready : v.status.faulted = false := by rw [← hv]; exact hr
  have ahead' : ({ v with seq := [.decode] } : State).Ahead (T.hdr ++ rest) := by rw [← hv]; exact ahead
  obtain ⟨node, x, d, header, tree⟩ := execRdhdr_tree
    (s := { v with seq := [.decode] }) ready hT ahead'
  refine ⟨node, x, d, _, rfl, ?_, ahead.transfer (out := []) (es := T.reads) rfl, ?_⟩
  · rw [← tree, ← hv]
    exact tree_congr rfl rfl rfl
  · rw [execDecompress, unlessFaulted_ready hr, decompressSteps, runSteps_cons .rdmagic [.rdhdr, .decode] s magic ready,
      runSteps_cons .rdhdr [.decode] v header ready, ← hv]
    rfl

/-- Settles O50: the three steps of DECOMPRESS, each on its part of the stream. -/
theorem decompressReadsStream : Obligations.DecompressReadsStream := by
  rintro s src snk l r ms q rest ⟨hr, he⟩ hs heos hk hc hsize hms hq hp
  have ahead : s.Ahead (bitsOf 32 0xFACE8201 ++ ((HTree.node l r).hdr ++ (pathBits ms ++ (q ++ rest)))) :=
    ⟨src, hs, heos, by simpa only [List.append_assoc] using hp⟩
  obtain ⟨node, x, d, u, hu, tree, payload, header⟩ := execDecompress_header hr hsize ahead
  have source : u.source = some { src with pos := src.pos + 32 + (HTree.node l r).hdr.length } := by
    rw [hu, afterHeader_source (transfer_source hs)]
  have sink : u.sink = some snk := by
    rw [hu, afterHeader_sink, transfer_read_sink, hk]
  have status : u.status = { s.status with treeValid := true, treeBuilt := false, codeValid := false } := by
    rw [hu]
    rfl
  have ready : u.status.faulted = false := by rw [status]; exact hr
  have valid : u.status.treeValid = true := by rw [status]
  have tree' : ({ u with seq := [] } : State).tree = some (.node l r) := by
    rw [← tree]
    exact tree_congr rfl rfl rfl
  obtain ⟨c, e, -, -, -, decoded⟩ := execDecode_transfer (s := { u with seq := [] }) ready valid tree' ⟨snk, sink, hc⟩
    hms hq payload
  rw [transfer_of_bound (s := { u with seq := [] }) source sink] at decoded
  refine ⟨_, header.trans (runSteps_cons .decode [] _ decoded ready), ⟨ready, ?_⟩, ?_, ?_, ?_, rfl, ?_⟩
  · change u.err = none
    rw [hu]
    exact he
  · change { u.status with dstate := .terminated } = _
    rw [status]
  · rw [← tree]
    exact tree_congr rfl rfl rfl
  · change some { src with pos := src.pos + 32 + (HTree.node l r).hdr.length + (pathBits ms ++ q).length } = _
    simp only [List.length_append, bitsOf_length, Nat.add_assoc]
  · rw [hu]
    exact ⟨rfl, rfl, rfl, rfl, rfl⟩

end Sys2Proof.Machine
end

section
/-! SUPPORT. The source read byte by byte (20_memory.md R61, 40_frequency_counter.md R120, R124, 44_payload_encoder.md
R180): COUNT on an input whose counts fit, and ENCODE's loop on bytes with codes, to its end or to the first byte
without one. -/

namespace Sys2Proof.Machine

variable {s : State}

/-! ### Whole bytes -/

theorem wholeBytes_append {p : Bits} (hp : p.length = 8) (rest : Bits) :
    wholeBytes (p ++ rest) = intOf p :: wholeBytes rest := by
  match p, hp with
  | [_, _, _, _, _, _, _, _], _ => rfl

theorem wholeBytes_of_short {p : Bits} (hp : p.length < 8) : wholeBytes p = [] := by
  unfold wholeBytes
  split
  · simp only [List.length_cons] at hp
    omega
  · rfl

/-- What the next `SrcRead(8)` finds: a byte, or fewer than eight bits (R61). -/
theorem bytes_cases (src : Source) :
    (src.bytes = [] ∧ (src.eos = true ∨ src.bits.length < src.pos + 8)) ∨
      ∃ p rest, src.eos = false ∧ src.bits.drop src.pos = p ++ rest ∧ p.length = 8 ∧
        src.bytes = intOf p :: wholeBytes rest := by
  unfold Source.bytes Source.rest
  cases src.eos with
  | true => exact .inl ⟨rfl, .inl rfl⟩
  | false =>
    by_cases short : (src.bits.drop src.pos).length < 8
    · refine .inl ⟨wholeBytes_of_short short, .inr ?_⟩
      rw [List.length_drop] at short
      omega
    · have eight : ((src.bits.drop src.pos).take 8).length = 8 := by rw [List.length_take]; omega
      refine .inr ⟨_, _, rfl, (List.take_append_drop 8 _).symm, eight, ?_⟩
      rw [← wholeBytes_append eight, List.take_append_drop]
      rfl

theorem length_wholeBytes (p : Bits) : 8 * (wholeBytes p).length ≤ p.length := by
  induction p using wholeBytes.induct with
  | case1 _ _ _ _ _ _ _ _ rest ih =>
    simp only [wholeBytes, List.length_cons]
    omega
  | case2 p hp => simp [wholeBytes]

theorem wholeBytes_lt (p : Bits) : ∀ b ∈ wholeBytes p, b < 256 := by
  induction p using wholeBytes.induct with
  | case1 _ _ _ _ _ _ _ _ rest ih =>
    rintro b (_ | ⟨_, hb⟩)
    · exact lt_of_lt_of_le (intOf_lt _) (by simp)
    · exact ih b hb
  | case2 p hp => simp [wholeBytes]

theorem length_bytes_le (src : Source) : src.bytes.length ≤ src.bits.length := by
  have whole := length_wholeBytes src.rest
  have rest : src.rest.length ≤ src.bits.length := by
    unfold Source.rest
    split <;> simp
  exact le_trans (by unfold Source.bytes; omega) rest

/-! ### One byte -/

/-- The bytes that are still to be read from the source. -/
def State.BytesAhead (bytes : List Nat) (s : State) : Prop := ∃ src, s.source = some src ∧ src.bytes = bytes

/-- The state after a `SrcRead(8)` without data: the latch is set (R61). -/
def State.exhaust (s : State) : State :=
  { s with source := s.source.map fun src => { src with eos := true }, trace := s.trace ++ [.srcRead 8 none] }

theorem exhaust_of_bound {src : Source} (hs : s.source = some src) :
    s.exhaust = { s with source := some { src with eos := true }, trace := s.trace ++ [.srcRead 8 none] } := by
  rw [State.exhaust, hs, Option.map_some]

theorem State.BytesAhead.length_lt_passes {bytes : List Nat} (h : s.BytesAhead bytes) : bytes.length < s.passes := by
  obtain ⟨src, hs, rfl⟩ := h
  have := length_bytes_le src
  simp only [State.passes, hs]
  omega

theorem State.BytesAhead.transfer {b : Nat} {bytes : List Nat} (h : s.BytesAhead (b :: bytes)) (out : Bits)
    (es : List PortEvent) : (s.transfer 8 out es).BytesAhead bytes := by
  obtain ⟨src, hs, hb⟩ := h
  refine ⟨_, transfer_source hs, ?_⟩
  obtain ⟨none, -⟩ | ⟨p, rest, heos, hp, h8, bytes⟩ := bytes_cases src
  · cases none.symm.trans hb
  · cases bytes.symm.trans hb
    simp only [Source.bytes, Source.rest, heos, Bool.false_eq_true, if_false]
    rw [← List.drop_drop, hp, List.drop_left' h8]

theorem srcRead_of_byte {b : Nat} {bytes : List Nat} (h : s.BytesAhead (b :: bytes)) :
    srcRead 8 s = .data b (s.transfer 8 [] [.srcRead 8 (some b)]) := by
  obtain ⟨src, hs, hb⟩ := h
  obtain ⟨none, -⟩ | ⟨p, rest, heos, hp, h8, bytes⟩ := bytes_cases src
  · cases none.symm.trans hb
  · cases bytes.symm.trans hb
    exact srcRead_of_ahead ⟨src, hs, heos, hp⟩ h8 (by decide) (by decide)

theorem srcRead_of_no_byte (h : s.BytesAhead []) : srcRead 8 s = .noData s.exhaust := by
  obtain ⟨src, hs, hb⟩ := h
  obtain ⟨-, short⟩ | ⟨p, rest, -, -, -, bytes⟩ := bytes_cases src
  · rw [srcRead_of_short hs (by decide) (by decide) short, exhaust_of_bound hs]
  · cases bytes.symm.trans hb

/-! ### COUNT -/

theorem getElem?_freq {k : Nat} (hk : k < 257) : s.freq[k]? = some (s.freqAt k) := by
  simp [State.freqAt, hk]

/-- The frequency table written whole. -/
def State.withFreq (f : Vector Nat 257) (s : State) : State := { s with freq := f }

theorem transfer_setFreq (n k v : Nat) (out : Bits) (es : List PortEvent) (s : State) :
    (s.setFreq k v).transfer n out es = (s.transfer n out es).setFreq k v := rfl

theorem withFreq_setFreq (f : Vector Nat 257) (k v : Nat) (s : State) : (s.setFreq k v).withFreq f = s.withFreq f := rfl

/-- The reads of bytes, one `SrcRead(8)` each. -/
def byteReads (bytes : List Nat) : List PortEvent := bytes.map fun b => .srcRead 8 (some b)

/-- COUNT's loop on bytes whose counts fit (R120, R123). -/
theorem countLoop_counts {bytes : List Nat} {passes : Nat} (h : s.BytesAhead bytes) (hp : bytes.length < passes)
    (fits : ∀ k < 256, s.freqAt k + bytes.count k ≤ 2 ^ s.cntW - 1) (lt : ∀ b ∈ bytes, b < 256) :
    ∃ f, countLoop passes s =
        .next ((s.transfer (8 * bytes.length) [] (byteReads bytes)).withFreq f).exhaust.validateFreq ∧
      (∀ k < 256, f[k]? = some (s.freqAt k + bytes.count k)) ∧ f[256]? = some 1 := by
  induction bytes generalizing s passes with
  | nil =>
    obtain ⟨passes, rfl⟩ := Nat.exists_eq_add_one.2 hp
    refine ⟨s.freq.setIfInBounds 256 1, ?_, fun k hk => ?_, Vector.getElem?_setIfInBounds_self_of_lt (by decide)⟩
    · rw [countLoop, srcRead_of_no_byte h, List.length_nil, byteReads, List.map_nil, Nat.mul_zero, transfer_zero_nil]
      rfl
    · rw [Vector.getElem?_setIfInBounds_ne (by omega), getElem?_freq (by omega), List.count_nil, Nat.add_zero]
  | cons b bytes ih =>
    obtain ⟨passes, rfl⟩ := Nat.exists_eq_add_one.2 (Nat.zero_lt_of_lt hp)
    have hb := lt b List.mem_cons_self
    have room : s.freqAt b < 2 ^ s.cntW - 1 := by
      have := fits b hb
      rw [List.count_cons_self] at this
      omega
    have counted (k : Nat) : ((s.transfer 8 [] [.srcRead 8 (some b)]).setFreq b (s.freqAt b + 1)).freqAt k +
        bytes.count k = s.freqAt k + (b :: bytes).count k := by
      rw [freqAt_setFreq, List.count_cons]
      by_cases hk : b = k
      · have small : k < 257 := by omega
        simp only [hk, small, and_self, if_true, beq_self_eq_true]
        omega
      · simp [hk]
    obtain ⟨f, loop, counts, sentinel⟩ := ih (passes := passes)
      (s := (s.transfer 8 [] [.srcRead 8 (some b)]).setFreq b (s.freqAt b + 1)) (h.transfer [] [.srcRead 8 (some b)])
      (by rw [List.length_cons] at hp; omega) (fun k hk => by rw [counted]; exact fits k hk)
      fun c hc => lt c (List.mem_cons_of_mem _ hc)
    refine ⟨f, ?_, fun k hk => by rw [counts k hk, counted], sentinel⟩
    rw [transfer_setFreq, withFreq_setFreq, transfer_transfer, Nat.add_comm 8, ← Nat.mul_succ] at loop
    rw [countLoop, srcRead_of_byte h]
    exact (if_pos room).trans loop

/-- COUNT on an input whose counts fit, from where the source stands (R120 to R122, R124). -/
theorem execCount_counts {src : Source} (hr : s.status.faulted = false) (hs : s.source = some src)
    (fits : ∀ k < 256, src.bytes.count k ≤ 2 ^ s.cntW - 1) :
    ∃ freq' x d, execCount s = .next { s with
        freq := freq'
        status := { s.status with freqValid := true, treeValid := false, treeBuilt := false, codeValid := false }
        source := some { src with pos := src.pos + 8 * src.bytes.length, eos := true }
        trace := s.trace ++ countReads src.bytes
        scratch := x
        draws := d } ∧
      (∀ k < 256, freq'[k]? = some (src.bytes.count k)) ∧ freq'[256]? = some 1 := by
  have ahead : s.BytesAhead src.bytes := ⟨src, hs, rfl⟩
  obtain ⟨freq', loop, counts, sentinel⟩ := countLoop_counts (s := s.invalidateFreq.zeroFreq) ahead
    ahead.length_lt_passes (fun k hk => by rw [freqAt_zeroFreq, Nat.zero_add]; exact fits k hk) (wholeBytes_lt _)
  refine ⟨freq', freeScratchOf s.cntW s.draws, s.draws + 1, ?_, fun k hk => ?_, sentinel⟩
  · rw [execCount, unlessFaulted_ready hr, loop, releaseScratch_next, transfer_read (s := s.invalidateFreq.zeroFreq) hs,
      countReads, ← List.append_assoc]
    rfl
  · rw [counts k hk, freqAt_zeroFreq, Nat.zero_add]

/-! ### ENCODE -/

section Encode

variable {passes : Nat} (ho : s.SinkOpen)
include ho

theorem encodeLoop_codes {bytes more : List Nat} (h : s.BytesAhead (bytes ++ more))
    (codes : ∀ b ∈ bytes, (s.codeAt b).valid = true ∧ 1 ≤ (s.codeAt b).len.toNat) :
    (s.transfer (8 * bytes.length) (s.payload bytes) (s.payloadEvents bytes)).BytesAhead more ∧
      encodeLoop (bytes.length + passes) s =
        encodeLoop passes (s.transfer (8 * bytes.length) (s.payload bytes) (s.payloadEvents bytes)) := by
  induction bytes generalizing s with
  | nil =>
    have nothing : s.transfer (8 * 0) (s.payload []) (s.payloadEvents []) = s := transfer_zero_nil s
    rw [List.length_nil, nothing, Nat.zero_add]
    exact ⟨h, rfl⟩
  | cons b bytes ih =>
    obtain ⟨valid, len⟩ := codes b List.mem_cons_self
    have emitted := emit_transfer (s := s.transfer 8 [] [.srcRead 8 (some b)]) ho.transfer len
    rw [transfer_transfer] at emitted
    have step : encodeLoop ((b :: bytes).length + passes) s =
        encodeLoop (bytes.length + passes)
          (s.transfer 8 (codeBits (s.codeAt b)) (.srcRead 8 (some b) :: codeWrites (s.codeAt b))) := by
      rw [List.length_cons, Nat.add_right_comm, encodeLoop, srcRead_of_byte h]
      simp only [transfer_codeAt, valid, if_true, emitted, andThen_next]
      rfl
    have rest := ih (s := s.transfer 8 (codeBits (s.codeAt b)) (.srcRead 8 (some b) :: codeWrites (s.codeAt b)))
      ho.transfer (h.transfer _ _) fun c hc => codes c (List.mem_cons_of_mem _ hc)
    rw [transfer_transfer, Nat.add_comm 8, ← Nat.mul_succ] at rest
    rw [step]
    exact rest

/-- At the end of the input the sentinel's code is written (R183). -/
theorem encodeLoop_sentinel (h : s.BytesAhead []) (valid : (s.codeAt 256).valid = true)
    (len : 1 ≤ (s.codeAt 256).len.toNat) :
    encodeLoop (passes + 1) s =
      .next (s.exhaust.transfer 0 (codeBits (s.codeAt 256)) (codeWrites (s.codeAt 256))) := by
  rw [encodeLoop, srcRead_of_no_byte h]
  exact (if_pos valid).trans (emit_transfer (s := s.exhaust) ho len)

end Encode

/-- At a byte without a code `E_NO_CODE` is raised (R182). -/
theorem encodeLoop_noCode {passes v : Nat} {post : List Nat} (h : s.BytesAhead (v :: post))
    (none : (s.codeAt v).valid = false) :
    encodeLoop (passes + 1) s = .next (raise .noCode (s.transfer 8 [] [.srcRead 8 (some v)])) := by
  rw [encodeLoop, srcRead_of_byte h]
  simp only [transfer_codeAt, none, Bool.false_eq_true, if_false]

section ExecEncode

variable {src : Source} {snk : Sink} (hr : s.status.faulted = false) (hv : s.status.codeValid = true)
  (hs : s.source = some src)
include hr hv hs

/-- ENCODE rewinds the source (R185). -/
theorem execEncode_eq :
    ∃ t, t = ({ s with source := some src.rewound, trace := s.trace ++ [.srcReset] } : State) ∧
      t.BytesAhead src.rewound.bytes ∧ execEncode s = releaseScratch (encodeLoop t.passes t) :=
  ⟨_, rfl, ⟨_, rfl, rfl⟩, by
    rw [execEncode, unlessFaulted_ready hr, hv, requireFlags_true, srcReset_of_bound hs, andThen_next]⟩

variable (hk : s.sink = some snk) (hc : snk.closed = false)
include hk hc

/-- ENCODE of bytes that have codes (R180, R183). -/
theorem execEncode_codes
    (codes : ∀ b, b ∈ src.rewound.bytes ∨ b = 256 → (s.codeAt b).valid = true ∧ 1 ≤ (s.codeAt b).len.toNat) :
    ∃ x d, execEncode s = .next { s with
      source := some { src.rewound with pos := 8 * src.rewound.bytes.length, eos := true }
      sink := some { snk with out := snk.out ++ s.payload src.rewound.bytes ++ codeBits (s.codeAt 256) }
      trace := s.trace ++ [PortEvent.srcReset] ++ s.payloadEvents src.rewound.bytes ++ [.srcRead 8 none]
        ++ codeWrites (s.codeAt 256)
      scratch := x
      draws := d } := by
  obtain ⟨t, ht, bytes, start⟩ := execEncode_eq hr hv hs
  have source : t.source = some src.rewound := by rw [ht]
  have sink : t.sink = some snk := by rw [ht]; exact hk
  have opened : t.SinkOpen := ⟨snk, sink, hc⟩
  have long := bytes.length_lt_passes
  obtain ⟨passes, hpasses⟩ : ∃ passes, t.passes = src.rewound.bytes.length + (passes + 1) :=
    ⟨t.passes - src.rewound.bytes.length - 1, by omega⟩
  have same (b : Nat) : t.codeAt b = s.codeAt b := by rw [ht]; rfl
  rw [← List.append_nil src.rewound.bytes] at bytes
  obtain ⟨done, loop⟩ := encodeLoop_codes (passes := passes + 1) opened bytes fun b hb => same b ▸ codes b (.inl hb)
  obtain ⟨valid, len⟩ := same 256 ▸ codes 256 (.inr rfl)
  rw [start, hpasses, loop, encodeLoop_sentinel opened.transfer done valid len, releaseScratch_next,
    transfer_of_bound source sink, exhaust_of_bound rfl, transfer_write rfl, rewound_pos, Nat.zero_add, ht]
  exact ⟨_, _, rfl⟩

/-- ENCODE of bytes one of which has no code, those before it having one (R182). -/
theorem execEncode_noCode {pre post : List Nat} {v : Nat} (split : src.rewound.bytes = pre ++ v :: post)
    (codes : ∀ b ∈ pre, (s.codeAt b).valid = true ∧ 1 ≤ (s.codeAt b).len.toNat)
    (none : (s.codeAt v).valid = false) :
    ∃ x d, execEncode s = .next { s with
      err := some (s.err.getD .noCode)
      status := { s.status with faulted := true }
      activity := .idle
      seq := []
      source := some { src.rewound with pos := 8 * (pre.length + 1) }
      sink := some { snk with out := snk.out ++ s.payload pre }
      trace := s.trace ++ [PortEvent.srcReset] ++ (s.payloadEvents pre ++ [.srcRead 8 (some v)])
      scratch := x
      draws := d } := by
  obtain ⟨t, ht, bytes, start⟩ := execEncode_eq hr hv hs
  have source : t.source = some src.rewound := by rw [ht]
  have sink : t.sink = some snk := by rw [ht]; exact hk
  have opened : t.SinkOpen := ⟨snk, sink, hc⟩
  have long := bytes.length_lt_passes
  rw [split] at bytes
  rw [split, List.length_append] at long
  obtain ⟨passes, hpasses⟩ : ∃ passes, t.passes = pre.length + (passes + 1) := ⟨t.passes - pre.length - 1, by omega⟩
  have same (b : Nat) : t.codeAt b = s.codeAt b := by rw [ht]; rfl
  obtain ⟨next, loop⟩ := encodeLoop_codes (passes := passes + 1) opened bytes fun b hb => same b ▸ codes b hb
  rw [start, hpasses, loop, encodeLoop_noCode next ((congrArg CodeEntry.valid (same v)).trans none),
    releaseScratch_next, transfer_transfer, List.append_nil, ← Nat.mul_succ, transfer_of_bound source sink, rewound_pos,
    Nat.zero_add, raise_eq, ht]
  exact ⟨_, _, rfl⟩

end ExecEncode

end Sys2Proof.Machine
end

section
/-! SUPPORT. COMPRESS on an input whose counts fit (46_control.md R201): what COUNT, BUILD and GENCODE leave for
ENCODE, the header written in between, and ENCODE's two ends. -/

namespace Sys2Proof.Machine

variable {s t u : State}

/-! ### BUILD's frame -/

/-- Only the node array and `PQ` may differ (R130). -/
def State.Grows (s t : State) : Prop := ∃ node nalloc pq, t = { s with node := node, nalloc := nalloc, pq := pq }

theorem State.Grows.removeMin {i : Idx} (h : s.Grows t) (hr : t.removeMin = some (i, u)) : s.Grows u := by
  obtain ⟨node, nalloc, pq, rfl⟩ := h
  obtain ⟨-, rfl⟩ := removeMin_eq_some hr
  exact ⟨_, _, _, rfl⟩

theorem State.Grows.addLeaf (h : s.Grows t) (sym : Sym) (w : Nat) : s.Grows (addLeaf sym w t) := by
  obtain ⟨node, nalloc, pq, rfl⟩ := h
  exact ⟨_, _, _, rfl⟩

theorem State.Grows.addInternal (h : s.Grows t) (a b : Idx) : s.Grows (addInternal a b t) := by
  obtain ⟨node, nalloc, pq, rfl⟩ := h
  exact ⟨_, _, _, rfl⟩

theorem grows_placeLeaves (s : State) : s.Grows (placeLeaves s) := by
  have leaves (ls : List (Nat × Nat)) {t : State} (h : s.Grows t) : s.Grows (ls.foldl placeLeaf t) := by
    induction ls generalizing t with
    | nil => exact h
    | cons leaf ls ih => exact ih (h.addLeaf _ _)
  rw [placeLeaves_eq_foldl]
  exact leaves _ ⟨_, _, _, rfl⟩

theorem State.Grows.mergeLoop (h : s.Grows t) (passes : Nat) : AllNext s.Grows (mergeLoop passes t) := by
  induction passes generalizing t with
  | zero => exact allNext_fault _
  | succ passes ih =>
    unfold Machine.mergeLoop
    split
    · exact allNext_next.2 h
    · split
      · exact allNext_fault _
      next ha =>
        split
        · exact allNext_fault _
        next hb => exact ih (((h.removeMin ha).removeMin hb).addInternal _ _)

/-- BUILD writes the node array, `ROOT`, `PQ`, the flags of the tree and of the codes, and scratch registers (R130, R205). -/
theorem execBuild_frame (hr : s.status.faulted = false) (hv : s.status.freqValid = true) (ht : execBuild s = .next t) :
    ∃ node nalloc root pq x d, t = { s with
      node := node, nalloc := nalloc, root := root, pq := pq, scratch := x, draws := d
      status := { s.status with treeValid := true, treeBuilt := true, codeValid := false } } := by
  rw [execBuild, unlessFaulted_ready hr, hv, requireFlags_true] at ht
  obtain ⟨v, hv, rfl⟩ := releaseScratch_eq_next.1 ht
  obtain ⟨w, hw, hroot⟩ := andThen_eq_next.1 hv
  have grown := (grows_placeLeaves s.invalidateTree).mergeLoop _ w hw
  unfold takeRoot at hroot
  split at hroot
  · cases hroot
  next r z hz =>
    cases hroot
    obtain ⟨node, nalloc, pq, rfl⟩ := grown.removeMin hz
    exact ⟨_, _, _, _, _, _, rfl⟩

/-! ### The leaves of a counted input -/

/-- The leaves that BUILD makes of counted bytes are those of the bytes that occur, the filler of an empty input, and the sentinel (R131,
R133). -/
theorem mem_leafList_iff {bytes : List Nat} (lt : ∀ b ∈ bytes, b < 256) (counts : ∀ k < 256, s.freqAt k = bytes.count k)
    {b : Nat} (hb : b < 256) : b ∈ s.leafList.map Prod.fst ↔ hasLeaf bytes b := by
  constructor
  · intro h
    obtain ⟨leaf, hl, rfl⟩ := List.mem_map.1 h
    rcases List.mem_append.1 hl with hl | hl
    · split at hl
      next zero =>
        cases List.mem_singleton.1 hl
        refine .inr ⟨List.eq_nil_iff_forall_not_mem.2 fun c hc => ?_, rfl⟩
        have none := eq_of_beq (List.all_eq_true.1 zero c (List.mem_range.2 (lt c hc)))
        rw [counts c (lt c hc)] at none
        exact List.count_eq_zero.1 none hc
      · cases hl
    · obtain ⟨k, hk, rfl⟩ := List.mem_map.1 hl
      have pos := of_decide_eq_true (List.mem_filter.1 hk).2
      rw [counts k hb] at pos
      exact .inl (List.count_pos_iff.1 pos)
  · rintro (h | ⟨rfl, rfl⟩)
    · exact mem_leafList_of_pos hb.le (by rw [counts b hb]; exact List.count_pos_iff.2 h)
    · have zero : ((List.range 256).all fun k => s.freqAt k == 0) = true :=
        List.all_eq_true.2 fun k hk => beq_iff_eq.2 (counts k (List.mem_range.1 hk))
      rw [State.leafList, if_pos zero]
      exact List.mem_cons_self

/-! ### What ENCODE finds -/

theorem State.HoldsBuilt.congr {T : HTree} (h : s.HoldsBuilt T) (hn : t.node = s.node) (ha : t.nalloc = s.nalloc)
    (hr : t.root = s.root) : t.HoldsBuilt T :=
  { h with
    tree := (tree_congr hn ha hr).trans h.tree
    weights := (weightsOk_congr hn ha).trans h.weights }

/-- The code of a leaf of a built tree is valid and has bits (R150, R153). -/
theorem State.HoldsCodes.code_of_mem {T : HTree} (h : s.HoldsCodes T) (hT : s.HoldsBuilt T) {x : Sym} (hx : x ∈ T.syms) :
    (s.codeAt x.toNat).valid = true ∧ 1 ≤ (s.codeAt x.toNat).len.toNat := by
  rw [← T.codes_fst []] at hx
  obtain ⟨c, hc, rfl⟩ := List.mem_map.1 hx
  obtain ⟨pos, le⟩ := hT.length_of_mem_codes hc
  rw [h.present c hc, codeOf_len le]
  exact ⟨rfl, pos⟩

/-- The block holds the tree `T` of the input `src` and its codes; what COMPRESS never writes is as in the state `s`. -/
structure State.Coded (s : State) (src : Source) (T : HTree) (t : State) : Prop where
  cntW    : t.cntW = s.cntW
  cur     : t.cur = s.cur
  host    : t.host = s.host
  readout : t.readout = s.readout
  built   : t.HoldsBuilt T
  codes   : t.HoldsCodes T
  leaves  : ∀ b < 256, b ∈ T.syms.map BitVec.toNat ↔ hasLeaf src.bytes b

/-- What COMPRESS has done when ENCODE begins: the input is counted, its tree built and coded, and the sink as given. -/
structure State.Prepared (s : State) (src : Source) (sink : Option Sink) (T : HTree) (t : State) : Prop
    extends s.Coded src T t where
  err    : t.err = s.err
  status : t.status = { s.status with freqValid := true, treeValid := true, treeBuilt := true, codeValid := true }
  source : t.source = some { src with pos := src.pos + 8 * src.bytes.length, eos := true }
  sink   : t.sink = sink

namespace State.Coded

variable {src : Source} {T : HTree}

theorem congr (h : s.Coded src T t) (hn : u.node = t.node) (ha : u.nalloc = t.nalloc) (hr : u.root = t.root)
    (hcode : u.code = t.code) (hw : u.cntW = t.cntW) (hcur : u.cur = t.cur) (hh : u.host = t.host)
    (ho : u.readout = t.readout) : s.Coded src T u :=
  have same (k : Nat) : u.codeAt k = t.codeAt k := by simp only [State.codeAt, hcode]
  { cntW := hw.trans h.cntW
    cur := hcur.trans h.cur
    host := hh.trans h.host
    readout := ho.trans h.readout
    built := h.built.congr hn ha hr
    codes := ⟨fun c hc => (same _).trans (h.codes.present c hc),
      fun k hk hno => by rw [same]; exact h.codes.absent k hk hno⟩
    leaves := h.leaves }

/-- A byte that has a leaf has a code (R150), which has bits (R153). -/
theorem code_of_hasLeaf (h : s.Coded src T t) {b : Nat} (hb : b < 256) (hl : hasLeaf src.bytes b) :
    (t.codeAt b).valid = true ∧ 1 ≤ (t.codeAt b).len.toNat := by
  obtain ⟨x, hx, rfl⟩ := List.mem_map.1 ((h.leaves b hb).2 hl)
  exact h.codes.code_of_mem h.built hx

theorem no_code_of_not_hasLeaf (h : s.Coded src T t) {b : Nat} (hb : b < 256) (hl : ¬ hasLeaf src.bytes b) :
    (t.codeAt b).valid = false := by
  refine h.codes.absent b (by omega) fun c hc heq => hl ((h.leaves b hb).1 ?_)
  exact heq ▸ List.mem_map_of_mem (HTree.mem_syms_of_mem_codes hc)

theorem codesOk (h : s.Coded src T t) : t.codesOk = true :=
  (codesOk_iff h.built.tree h.built.nodup h.built.syms_le).2 h.codes

end State.Coded

namespace State.Prepared

variable {src : Source} {snk : Sink} {sink : Option Sink} {T : HTree}

theorem withSeq (h : s.Prepared src sink T t) (ms : List MacroStep) : s.Prepared src sink T { t with seq := ms } :=
  { h with toCoded := h.toCoded.congr rfl rfl rfl rfl rfl rfl rfl rfl }

theorem freeScratch (h : s.Prepared src sink T t) : s.Prepared src sink T t.freeScratch :=
  { h with toCoded := h.toCoded.congr rfl rfl rfl rfl rfl rfl rfl rfl }

theorem write (h : s.Prepared src (some snk) T t) (out : Bits) (es : List PortEvent) :
    s.Prepared src (some { snk with out := snk.out ++ out }) T (t.transfer 0 out es) :=
  { h with
    toCoded := h.toCoded.congr rfl rfl rfl rfl rfl rfl rfl rfl
    source := transfer_write_source.trans h.source
    sink := transfer_sink h.sink }

theorem faulted_eq (h : s.Prepared src sink T t) : t.status.faulted = s.status.faulted := by rw [h.status]

end State.Prepared

/-! ### COUNT, BUILD and GENCODE -/

section Prepare

variable {src : Source} (hr : s.status.faulted = false) (hs : s.source = some src)
  (fits : ∀ k < 256, src.bytes.count k ≤ 2 ^ s.cntW - 1)
include hr hs fits

theorem runSteps_prepare (ms : List MacroStep) :
    ∃ t T, s.Prepared src s.sink T t ∧ runSteps (.count :: .build :: .gencode :: ms) s = runSteps ms t := by
  obtain ⟨f, x, d, count, counts, sentinel⟩ := execCount_counts (s := { s with seq := .build :: .gencode :: ms }) hr hs fits
  generalize hc : ({ ({ s with seq := .build :: .gencode :: ms } : State) with
    freq := f
    status := { s.status with freqValid := true, treeValid := false, treeBuilt := false, codeValid := false }
    source := some { src with pos := src.pos + 8 * src.bytes.length, eos := true }
    trace := s.trace ++ countReads src.bytes
    scratch := x
    draws := d } : State) = c at count
  have hfreq : c.freq = f := by rw [← hc]
  have hstatus : c.status =
      { s.status with freqValid := true, treeValid := false, treeBuilt := false, codeValid := false } := by rw [← hc]
  have freqAt (k n : Nat) (h : f[k]? = some n) : ({ c with seq := .gencode :: ms } : State).freqAt k = n := by
    rw [State.freqAt]
    change c.freq[k]?.getD 0 = n
    rw [hfreq, h]
    rfl
  have ready : c.status.faulted = false := by rw [hstatus]; exact hr
  have valid : c.status.freqValid = true := by rw [hstatus]
  obtain ⟨b, T, build, -, built, perm, -⟩ := execBuild_built (s := { c with seq := .gencode :: ms }) ready valid
    (by rw [freqAt 256 1 sentinel]; decide)
  obtain ⟨node, nalloc, root, pq, y, e, hb⟩ := execBuild_frame (s := { c with seq := .gencode :: ms }) ready valid build
  have bstatus : b.status =
      { s.status with freqValid := true, treeValid := true, treeBuilt := true, codeValid := false } := by
    rw [hb]
    dsimp only
    rw [hstatus]
  have bready : b.status.faulted = false := by rw [bstatus]; exact hr
  have tree : ({ b with seq := ms } : State).HoldsBuilt T := built.congr rfl rfl rfl
  have gencode := execGencode_eq (s := { b with seq := ms }) bready (by dsimp only; rw [bstatus])
    (by dsimp only; rw [bstatus]) tree.tree tree.syms_le (HTree.depth_le_of_syms tree.nodup tree.syms_le)
  have codes := holdsCodes_withCodes (s := ({ b with seq := ms } : State).invalidateCode) built.nodup built.syms_le
  have leaves (k : Nat) (hk : k < 256) : k ∈ T.syms.map BitVec.toNat ↔ hasLeaf src.bytes k := by
    rw [perm.mem_iff]
    exact mem_leafList_iff (wholeBytes_lt _) (fun j hj => freqAt j _ (counts j hj)) hk
  refine ⟨_, T, ?_, ((runSteps_cons .count _ s count ready).trans (runSteps_cons .build _ c build bready)).trans
    (runSteps_cons .gencode ms b gencode (by exact bready))⟩
  exact
    { cntW := by change b.cntW = _; rw [hb, ← hc]
      cur := by change b.cur = _; rw [hb, ← hc]
      host := by change b.host = _; rw [hb, ← hc]
      readout := by change b.readout = _; rw [hb, ← hc]
      err := by change b.err = _; rw [hb, ← hc]
      status := by change { b.status with codeValid := true } = _; rw [bstatus]
      source := by change b.source = _; rw [hb, ← hc]
      sink := by change b.sink = _; rw [hb, ← hc]
      built := built.congr rfl rfl rfl
      codes := ⟨codes.present, codes.absent⟩
      leaves := leaves }

end Prepare

/-! ### The header, and ENCODE -/

section Encode

variable {src : Source} {snk : Sink} {T : HTree}

/-- WRMAGIC and WRHDR write the magic and the tree (R160, R161). -/
theorem State.Prepared.header (h : s.Prepared src (some snk) T t) (hr : s.status.faulted = false)
    (hc : snk.closed = false) :
    ∃ u, s.Prepared src (some { snk with out := snk.out ++ bitsOf 32 0xFACE8201 ++ T.hdr }) T u ∧
      runSteps [.wrmagic, .wrhdr, .encode] t = runSteps [.encode] u := by
  have ready : t.status.faulted = false := h.faulted_eq.trans hr
  have magic := execWrmagic_transfer (s := { t with seq := [.wrhdr, .encode] }) ready ⟨snk, h.sink, hc⟩
  have written := (h.withSeq [.wrhdr, .encode]).write (bitsOf 32 0xFACE8201) [.sinkWrite 32 0xFACE8201]
  generalize State.transfer 0 (bitsOf 32 0xFACE8201) [.sinkWrite 32 0xFACE8201]
    { t with seq := [.wrhdr, .encode] } = v at magic written
  have ready' : v.status.faulted = false := written.faulted_eq.trans hr
  have written' := written.withSeq [.encode]
  have header := execWrhdr_transfer (s := { v with seq := [.encode] }) ready' (by rw [written'.status])
    written'.built.tree ⟨_, written'.sink, hc⟩
  exact ⟨_, (written'.write T.hdr T.writes).freeScratch,
    (runSteps_cons .wrmagic _ t magic ready').trans (runSteps_cons .wrhdr _ v header ready')⟩

/-- A last step that raises a fault ends the macro (R109). -/
theorem runSteps_of_faulted {m : MacroStep} {ms : List MacroStep} (h : runStep m { s with seq := ms } = .next t)
    (ht : t.status.faulted = true) : runSteps (m :: ms) s = .next t := by
  rw [runSteps, h, andThen_next, ht, if_pos rfl]

/-- ENCODE of bytes that all have a leaf (R180, R183). -/
theorem State.Prepared.encode (h : s.Prepared src (some snk) T t) (hr : s.status.faulted = false)
    (hc : snk.closed = false) (all : ∀ b ∈ src.rewound.bytes, hasLeaf src.bytes b) :
    ∃ u, runSteps [.encode] t = .next u ∧ s.Coded src T u ∧ u.err = s.err ∧
      u.status = { s.status with freqValid := true, treeValid := true, treeBuilt := true, codeValid := true } ∧
      u.source = some { src.rewound with pos := 8 * src.rewound.bytes.length, eos := true } ∧
      u.sink = some { snk with out := snk.out ++ u.payload src.rewound.bytes ++ codeBits (u.codeAt 256) } := by
  have ready : t.status.faulted = false := h.faulted_eq.trans hr
  obtain ⟨x, d, encoded⟩ := execEncode_codes (s := { t with seq := [] }) ready (by rw [h.status]) h.source h.sink hc (by
    rintro b (hb | rfl)
    · exact h.code_of_hasLeaf (wholeBytes_lt _ b hb) (all b hb)
    · exact h.codes.code_of_mem h.built h.built.sentinel)
  refine ⟨_, runSteps_cons .encode [] t encoded ready, ?_, h.err, h.status, rfl, rfl⟩
  exact h.toCoded.congr rfl rfl rfl rfl rfl rfl rfl rfl

/-- ENCODE of bytes one of which has no leaf, those before it having one (R182). -/
theorem State.Prepared.encode_noCode (h : s.Prepared src (some snk) T t) (hr : s.status.faulted = false)
    (hc : snk.closed = false) {pre post : List Nat} {v : Nat} (split : src.rewound.bytes = pre ++ v :: post)
    (leaves : ∀ b ∈ pre, hasLeaf src.bytes b) (none : ¬ hasLeaf src.bytes v) :
    ∃ u, runSteps [.encode] t = .next u ∧ s.Coded src T u ∧ u.err = some (s.err.getD .noCode) ∧
      u.status = { s.status with
        freqValid := true, treeValid := true, treeBuilt := true, codeValid := true, faulted := true } ∧
      u.source = some { src.rewound with pos := 8 * (pre.length + 1) } ∧
      u.sink = some { snk with out := snk.out ++ u.payload pre } := by
  have ready : t.status.faulted = false := h.faulted_eq.trans hr
  have lt (b : Nat) (hb : b ∈ pre ++ v :: post) : b < 256 := by
    rw [← split] at hb
    exact wholeBytes_lt _ b hb
  obtain ⟨x, d, encoded⟩ := execEncode_noCode (s := { t with seq := [] }) ready (by rw [h.status]) h.source h.sink hc
    split (fun b hb => h.code_of_hasLeaf (lt b (List.mem_append_left _ hb)) (leaves b hb))
    (h.no_code_of_not_hasLeaf (lt v (by simp)) none)
  refine ⟨_, runSteps_of_faulted encoded rfl, ?_, ?_, ?_, rfl, rfl⟩
  · exact h.toCoded.congr rfl rfl rfl rfl rfl rfl rfl rfl
  · dsimp only
    rw [h.err]
  · dsimp only
    rw [h.status]

end Encode

/-! ### COMPRESS -/

/-- The bytes a changed input may deliver: all have the property, or there is a first one that has not. -/
theorem exists_first_not {P : Nat → Prop} {bytes : List Nat} (h : ¬ ∀ b ∈ bytes, P b) :
    ∃ pre v post, bytes = pre ++ v :: post ∧ (∀ b ∈ pre, P b) ∧ ¬ P v := by
  induction bytes with
  | nil => exact absurd nofun h
  | cons c bytes ih =>
    by_cases hc : P c
    · obtain ⟨pre, v, post, rfl, hpre, hv⟩ := ih fun all => h (List.forall_mem_cons.2 ⟨hc, all⟩)
      exact ⟨c :: pre, v, post, rfl, List.forall_mem_cons.2 ⟨hc, hpre⟩, hv⟩
    · exact ⟨[], c, bytes, rfl, nofun, hc⟩

/-- COMPRESS up to ENCODE (R201). -/
theorem execCompress_prepared {src : Source} {snk : Sink} (hr : s.status.faulted = false) (hs : s.source = some src)
    (hk : s.sink = some snk) (hc : snk.closed = false) (fits : ∀ k < 256, src.bytes.count k ≤ 2 ^ s.cntW - 1) :
    ∃ t T, s.Prepared src (some { snk with out := snk.out ++ bitsOf 32 0xFACE8201 ++ T.hdr }) T t ∧
      execCompress s = runSteps [.encode] t := by
  obtain ⟨t, T, prepared, first⟩ := runSteps_prepare hr hs fits [.wrmagic, .wrhdr, .encode]
  rw [hk] at prepared
  obtain ⟨u, written, second⟩ := prepared.header hr hc
  refine ⟨u, T, written, ?_⟩
  rw [execCompress, unlessFaulted_ready hr]
  exact first.trans second

/-- Settles O49: ENCODE ends at the first byte that has no leaf in the tree of the bytes counted, or after the sentinel's code. -/
theorem compressWritesStream : Obligations.CompressWritesStream := by
  rintro s src snk ⟨hr, he⟩ hs hk hc fits
  obtain ⟨w, T, prepared, run⟩ := execCompress_prepared hr hs hk hc fits
  have ended : ∃ t, runSteps [.encode] w = .next t ∧ s.Coded src T t := by
    by_cases all : ∀ b ∈ src.rewound.bytes, hasLeaf src.bytes b
    · obtain ⟨t, ht, coded, -⟩ := prepared.encode hr hc all
      exact ⟨t, ht, coded⟩
    · obtain ⟨pre, v, post, split, leaves, none⟩ := exists_first_not all
      obtain ⟨t, ht, coded, -⟩ := prepared.encode_noCode hr hc split leaves none
      exact ⟨t, ht, coded⟩
  obtain ⟨t, ht, coded⟩ := ended
  refine ⟨t, T, run.trans ht, coded.built.tree, builtOk_iff.2 ⟨T, coded.built⟩, coded.codesOk, coded.cntW, coded.cur,
    coded.host, coded.readout, fun all => ?_, fun hpos heos hsame => ?_, fun pre v post split leaves none => ?_⟩
  · obtain ⟨u, hu, -, herr, hst, hsrc, hsnk⟩ := prepared.encode hr hc all
    cases ht.symm.trans hu
    exact ⟨⟨by rw [hst]; exact hr, herr.trans he⟩, hst, hsrc, hsnk⟩
  · have same : src.rewound = src := by
      rw [rewound_of_unchanged hsame, ← hpos, ← heos]
    rw [same]
    exact fun b => .inl
  · obtain ⟨u, hu, -, herr, hst, hsrc, hsnk⟩ := prepared.encode_noCode hr hc split leaves none
    cases ht.symm.trans hu
    exact ⟨by rw [herr, he]; rfl, hst, hsrc, hsnk⟩

end Sys2Proof.Machine
end

section
/-! SUPPORT. Where the model refuses (70_reset_and_hazards.md R264, 20_memory.md R65, 30_encoding.md R90): a port that
is not bound or is closed stops the operation at its first transaction on that port. -/

namespace Sys2Proof.Machine

variable {s t : State} {r : Refusal}

/-! ### Ports -/

theorem srcRead_unbound (hs : s.source = none) (n : Nat) : srcRead n s = .refused .sourceUnbound := by
  simp only [srcRead, hs]

theorem sinkRefuses_of_sink (h : sinkRefuses s r) (hk : t.sink = s.sink) : sinkRefuses t r := by
  rwa [sinkRefuses, hk]

theorem sinkWrite_refused (h : sinkRefuses s r) (n v : Nat) : sinkWrite n v s = .refused r := by
  obtain ⟨hk, rfl⟩ | ⟨snk, hk, hc, rfl⟩ := h
  · simp only [sinkWrite, hk]
  · simp only [sinkWrite, hk, hc, if_true]

theorem sinkClose_refused (h : sinkRefuses s r) (pad : BitVec 7) : sinkClose pad s = .refused r := by
  obtain ⟨hk, rfl⟩ | ⟨snk, hk, hc, rfl⟩ := h
  · simp only [sinkClose, hk]
  · simp only [sinkClose, hk, hc, if_true]

theorem srcRead_width {src : Source} (hs : s.source = some src) {n : Nat} (hn : n = 0 ∨ 32 < n) :
    srcRead n s = .refused .transferWidth := by
  simp only [srcRead, hs]
  exact if_pos hn

theorem sinkWrite_width {snk : Sink} (hk : s.sink = some snk) (hc : snk.closed = false) {n : Nat} (hn : n = 0 ∨ 32 < n)
    (v : Nat) : sinkWrite n v s = .refused .transferWidth := by
  simp only [sinkWrite, hk, hc]
  exact if_pos hn

/-! ### Tokens -/

/-- No content of a stream is taken as a command, and no token by a block that waits for none (R90). -/
theorem exec_token_refused (ha : s.activity = .idle) {i : Instr} (hi : isCommand i = false) :
    exec i s = .refused .tokenNotAwaited := by
  cases i with
  | wMagic => simp only [exec, execWMagic, ha]
  | wInode => simp only [exec, execWInode, ha]
  | wLeaf sym => simp only [exec, execWLeaf, ha]
  | _ => cases hi

/-! ### No source -/

/-- A step that is refused is the macro's refusal. -/
theorem runSteps_refused {m : MacroStep} {ms : List MacroStep} (h : runStep m { s with seq := ms } = .refused r) :
    runSteps (m :: ms) s = .refused r := by
  rw [runSteps, h, andThen_refused]

section Unbound

variable (hs : s.source = none) (hr : s.status.faulted = false)
include hs hr

theorem execCount_unbound : execCount s = .refused .sourceUnbound := by
  have passes : s.passes = 0 + 1 := by simp only [State.passes, hs]
  rw [execCount, unlessFaulted_ready hr, passes, countLoop, srcRead_unbound (s := s.invalidateFreq.zeroFreq) hs]
  rfl

theorem execRdmagic_unbound : execRdmagic s = .refused .sourceUnbound := by
  rw [execRdmagic, unlessFaulted_ready hr, takeToken, fetchWire_startMagic, fetchMagic,
    srcRead_unbound (s := startMagic s) hs]

theorem execRdhdr_unbound : execRdhdr s = .refused .sourceUnbound := by
  have token : takeToken (startTree s) = .refused .sourceUnbound := by
    simp only [takeToken, fetchWire, startTree_activity, fetchTreeToken, srcRead_unbound (s := startTree s) hs]
  rw [execRdhdr, unlessFaulted_ready hr, tokenLoop_of_refused token]

theorem execCompress_unbound : execCompress s = .refused .sourceUnbound := by
  rw [execCompress, unlessFaulted_ready hr]
  exact runSteps_refused (execCount_unbound hs hr)

theorem execDecompress_unbound : execDecompress s = .refused .sourceUnbound := by
  rw [execDecompress, unlessFaulted_ready hr]
  exact runSteps_refused (execRdmagic_unbound hs hr)

theorem execEncode_unbound (hv : s.status.codeValid = true) : execEncode s = .refused .sourceUnbound := by
  simp only [execEncode, unlessFaulted_ready hr, hv, requireFlags_true, srcReset, hs, andThen_refused,
    releaseScratch_refused]

theorem execDecode_unbound (hv : s.status.treeValid = true) {e : NodeEntry} (he : s.readNode s.root = some e)
    (hk : e.kind = .internal) : execDecode s = .refused .sourceUnbound := by
  have passes : s.passes = 0 + 1 := by simp only [State.passes, hs]
  simp only [execDecode, unlessFaulted_ready hr, hv, requireFlags_true, he, hk, passes, decodeLoop,
    srcRead_unbound (s := s.cursorToRoot) hs]

end Unbound

/-! ### No sink, or a closed one -/

theorem emit_refused (h : sinkRefuses s r) (c : CodeEntry) : emit c s = .refused r := by
  unfold emit emitPieces
  split
  · rw [sinkWrite_refused h, andThen_refused]
  · exact sinkWrite_refused h _ _

/-- ENCODE's loop writes in its first pass, a byte's code or the sentinel's. -/
theorem encodeLoop_refused (h : sinkRefuses s r) {bytes : List Nat} (hb : s.BytesAhead bytes)
    (valid : ∀ b, b ∈ bytes ∨ b = 256 → (s.codeAt b).valid = true) (passes : Nat) :
    encodeLoop (passes + 1) s = .refused r := by
  cases bytes with
  | nil =>
    rw [encodeLoop, srcRead_of_no_byte hb]
    exact (if_pos (valid 256 (.inr rfl))).trans (emit_refused (s := s.exhaust) (sinkRefuses_of_sink h rfl) _)
  | cons b bytes =>
    have hvalid := valid b (.inl List.mem_cons_self)
    rw [encodeLoop, srcRead_of_byte hb]
    simp only [transfer_codeAt, hvalid, if_true]
    rw [emit_refused (sinkRefuses_of_sink h transfer_read_sink), andThen_refused]

/-- A subtree's flag is written first. -/
theorem putTree_refused (h : sinkRefuses s r) {i : Idx} {e : NodeEntry} (he : s.readNode i = some e) (depth : Nat) :
    putTree (depth + 1) i s = .refused r := by
  rw [putTree, he]
  dsimp only
  cases e.kind with
  | leaf | internal => exact congrArg (andThen · _) (sinkWrite_refused h 1 _)

section Refused

variable (h : sinkRefuses s r) (hr : s.status.faulted = false)
include h hr

theorem execWrmagic_refused : execWrmagic s = .refused r := by
  rw [execWrmagic, unlessFaulted_ready hr, sinkWrite_refused h]

theorem execWrhdr_refused (hv : s.status.treeValid = true) {e : NodeEntry} (he : s.readNode s.root = some e) :
    execWrhdr s = .refused r := by
  rw [execWrhdr, unlessFaulted_ready hr, hv, requireFlags_true, putTree_refused h he 512, releaseScratch_refused]

theorem execEncode_refused (hv : s.status.codeValid = true) {src : Source} (hs : s.source = some src)
    (valid : ∀ b, b ∈ src.rewound.bytes ∨ b = 256 → (s.codeAt b).valid = true) : execEncode s = .refused r := by
  obtain ⟨t, ht, bytes, start⟩ := execEncode_eq hr hv hs
  have refuses : sinkRefuses t r := sinkRefuses_of_sink h (by rw [ht])
  obtain ⟨passes, hpasses⟩ := Nat.exists_eq_add_one.2 (Nat.zero_lt_of_lt bytes.length_lt_passes)
  have same (b : Nat) : t.codeAt b = s.codeAt b := by rw [ht]; rfl
  rw [start, hpasses, encodeLoop_refused refuses bytes fun b hb => same b ▸ valid b hb, releaseScratch_refused]

/-- COMPRESS gets as far as WRMAGIC (R201). -/
theorem execCompress_refused {src : Source} (hs : s.source = some src)
    (fits : ∀ k < 256, src.bytes.count k ≤ 2 ^ s.cntW - 1) : execCompress s = .refused r := by
  obtain ⟨t, T, prepared, run⟩ := runSteps_prepare hr hs fits [.wrmagic, .wrhdr, .encode]
  have refuses : sinkRefuses { t with seq := [.wrhdr, .encode] } r := sinkRefuses_of_sink h prepared.sink
  rw [execCompress, unlessFaulted_ready hr]
  exact run.trans (runSteps_refused (execWrmagic_refused refuses (prepared.faulted_eq.trans hr)))

/-- DECODE gets as far as the first symbol that is not the sentinel's (R193). -/
theorem execDecode_refused (hv : s.status.treeValid = true) {L R : HTree} (hT : s.tree = some (.node L R)) {x : Sym}
    {p rest : Bits} (hp : (x, p) ∈ (HTree.node L R).codes []) (hx : x ≠ 256) (ha : s.Ahead (p ++ rest)) :
    execDecode s = .refused r := by
  obtain ⟨is, spans, -⟩ := spans_of_subtree hT
  have root : s.cursorToRoot.Spans s.root (.node L R) is := spans.congr fun _ _ => rfl
  obtain ⟨passes, hpasses⟩ : ∃ passes, s.passes = p.length + passes := by
    have lt := length_lt_passes ha
    rw [List.length_append] at lt
    exact ⟨s.passes - p.length, by omega⟩
  obtain ⟨c, e, -, -, -, j, d, path⟩ := decodeLoop_path (passes := passes) root hp ha
  have other : x.toNat ≠ 256 := fun heq => hx (BitVec.eq_of_toNat_eq heq)
  have refuses : sinkRefuses ((s.cursorToRoot.transfer p.length [] (bitReads p)).moveCursor j d) r :=
    sinkRefuses_of_sink h (transfer_read_sink (s := s.cursorToRoot) (n := p.length) (es := bitReads p))
  rw [execDecode_internal hr hv spans, hpasses, path, decodeLeaf, if_neg other, sinkWrite_refused refuses, andThen_refused]

/-- DECOMPRESS reads the magic and the tree, and then gets as far as DECODE does (R202). -/
theorem execDecompress_refused {L R : HTree} {x : Sym} {p rest : Bits} (hp : (x, p) ∈ (HTree.node L R).codes [])
    (hx : x ≠ 256) (hsize : (HTree.node L R).size ≤ 513)
    (ha : s.Ahead (bitsOf 32 0xFACE8201 ++ ((HTree.node L R).hdr ++ (p ++ rest)))) : execDecompress s = .refused r := by
  obtain ⟨node, x, d, u, hu, tree, payload, header⟩ := execDecompress_header hr hsize ha
  have refuses : sinkRefuses { u with seq := [] } r := sinkRefuses_of_sink h (by
    change u.sink = _
    rw [hu, afterHeader_sink, transfer_read_sink])
  have tree' : ({ u with seq := [] } : State).tree = some (.node L R) := by
    rw [← tree]
    exact tree_congr rfl rfl rfl
  rw [header]
  exact runSteps_refused (execDecode_refused (s := { u with seq := [] }) refuses (by rw [hu]; exact hr) (by rw [hu]; rfl)
    tree' hp hx payload)

end Refused

/-- Settles O40: each command up to its first transaction on the port. -/
theorem refusalsOfTheModel : Obligations.RefusalsOfTheModel := by
  intro s
  refine ⟨fun ha i => exec_token_refused ha,
    fun hs hr => ⟨?_, execEncode_unbound hs hr, fun e hv he => execDecode_unbound hs hr hv he⟩,
    fun r h hr => ⟨execWrmagic_refused h hr, fun e hv he => execWrhdr_refused h hr hv he, fun src hs =>
      ⟨fun hv => execEncode_refused h hr hv hs, execCompress_refused h hr hs, fun T U x p rest heos hp hx =>
        ⟨fun hv hT hbits => execDecode_refused h hr hv hT hp hx ⟨src, hs, heos, hbits⟩,
          fun hsize hbits => execDecompress_refused h hr hp hx hsize
            ⟨src, hs, heos, by simpa only [List.append_assoc] using hbits⟩⟩⟩⟩,
    fun pad r h => sinkClose_refused h pad, fun bits hs => ?_,
    fun n hn => ⟨fun src hs => srcRead_width hs hn, fun snk v hk hc => sinkWrite_width hk hc hn v⟩⟩
  · rintro i (rfl | rfl | rfl | rfl | rfl)
    · exact execCount_unbound hs hr
    · exact execRdmagic_unbound hs hr
    · exact execRdhdr_unbound hs hr
    · exact execCompress_unbound hs hr
    · exact execDecompress_unbound hs hr
  · simp only [changeInput, hs]

end Sys2Proof.Machine
end

section
/-! SUPPORT. The steps of a macro as commands (11_parameters_reset.md R15, 30_encoding.md R109): no operation reads
which steps are still to come, and all it does with them is to drop them at a fault. So an operation run as a step
does what it does as a command. -/

namespace Sys2Proof.Machine

variable {q : List MacroStep} {s t u : State}

/-! ### Two runs that differ in the steps to come -/

/-- The states of two runs agree but for the steps to come, which are `q` in the second. -/
def State.SameBut (q : List MacroStep) (s t : State) : Prop := t = { s with seq := q }

/-- The states of two runs after an operation: they agree but for the steps to come, or a fault has dropped those in both. -/
def State.Resumed (q : List MacroStep) (s t : State) : Prop :=
  s.SameBut q t ∨ (s.status.faulted = true ∧ s.activity = .idle ∧ t = s)

/-- The function does not look at the steps to come, and keeps them. -/
def KeepsSteps (f : State → Outcome) : Prop :=
  ∀ q s, OutcomeRel (State.SameBut q) (f s) (f { s with seq := q })

/-- The function does not look at the steps to come; it keeps them or drops them with a fault. -/
def KeepsOrHalts (f : State → Outcome) : Prop :=
  ∀ q s, OutcomeRel (State.Resumed q) (f s) (f { s with seq := q })

theorem KeepsSteps.of_sameBut {f : State → Outcome} (hf : KeepsSteps f) (h : s.SameBut q t) :
    OutcomeRel (State.SameBut q) (f s) (f t) := by
  subst h
  exact hf q s

theorem KeepsOrHalts.of_sameBut {f : State → Outcome} (hf : KeepsOrHalts f) (h : s.SameBut q t) :
    OutcomeRel (State.Resumed q) (f s) (f t) := by
  subst h
  exact hf q s

theorem keepsOrHalts_of_sameBut {f : State → Outcome}
    (hf : ∀ q s t, s.SameBut q t → OutcomeRel (State.Resumed q) (f s) (f t)) : KeepsOrHalts f :=
  fun q s => hf q s _ rfl

theorem State.SameBut.activity (h : s.SameBut q t) : t.activity = s.activity := by
  rw [h]

theorem KeepsSteps.keepsOrHalts {f : State → Outcome} (hf : KeepsSteps f) : KeepsOrHalts f :=
  fun q s => (hf q s).mono fun _ _ => .inl

/-! ### How functions are put together -/

/-- A test that does not read the steps to come. -/
theorem OutcomeRel.ite {R : State → State → Prop} {c : Prop} [Decidable c] {a b a' b' : Outcome}
    (hthen : c → OutcomeRel R a a') (helse : ¬ c → OutcomeRel R b b') :
    OutcomeRel R (if c then a else b) (if c then a' else b') := by
  split
  next hc => exact hthen hc
  next hc => exact helse hc

theorem keepsOrHalts_raise (e : ErrKind) : KeepsOrHalts fun s => .next (raise e s) :=
  fun _ _ => .next (.inr ⟨rfl, rfl, rfl⟩)

theorem keepsOrHalts_raiseInTree (e : ErrKind) : KeepsOrHalts (raiseInTree e) :=
  fun _ _ => .next (.inr ⟨rfl, rfl, rfl⟩)

theorem unlessFaulted_keepsOrHalts {f : State → Outcome} (hf : KeepsOrHalts f) : KeepsOrHalts (unlessFaulted · f) :=
  fun q s => .ite (c := s.status.faulted = true) (fun _ => .next (.inl rfl)) fun _ => hf q s

theorem requireFlags_rel_of_keepsOrHalts {f : State → Outcome} (hf : KeepsOrHalts f) (c : Bool) :
    OutcomeRel (State.Resumed q) (requireFlags c s f) (requireFlags c { s with seq := q } f) :=
  .ite (fun _ => hf q s) fun _ => keepsOrHalts_raise .sequence q s

theorem releaseScratch_resumed {o p : Outcome} (h : OutcomeRel (State.Resumed q) o p) :
    OutcomeRel (State.Resumed q) (releaseScratch o) (releaseScratch p) := by
  refine h.andThen fun s t hst => .next ?_
  obtain rfl | ⟨hf, idle, rfl⟩ := hst
  · exact .inl rfl
  · exact .inr ⟨hf, idle, rfl⟩

/-! ### Ports -/

/-- A read gives both runs the same answer (R61). -/
theorem srcRead_steps (q : List MacroStep) (n : Nat) (s : State) :
    (∃ r, srcRead n s = .refused r ∧ srcRead n { s with seq := q } = .refused r) ∨
      (∃ u, srcRead n s = .noData u ∧ srcRead n { s with seq := q } = .noData { u with seq := q }) ∨
      ∃ b u, srcRead n s = .data b u ∧ srcRead n { s with seq := q } = .data b { u with seq := q } := by
  unfold srcRead
  dsimp only
  cases s.source with
  | none => exact .inl ⟨_, rfl, rfl⟩
  | some src =>
    dsimp only
    split
    · exact .inl ⟨_, rfl, rfl⟩
    · split
      · exact .inr (.inl ⟨_, rfl, rfl⟩)
      · exact .inr (.inr ⟨_, _, rfl, rfl⟩)

theorem sinkWrite_keepsSteps (n v : Nat) : KeepsSteps (sinkWrite n v) := by
  intro q s
  unfold sinkWrite
  dsimp only
  cases s.sink with
  | none => exact .refused _
  | some snk => exact .ite (fun _ => .refused _) fun _ => .ite (fun _ => .refused _) fun _ => .next rfl

theorem srcReset_keepsSteps : KeepsSteps srcReset := by
  intro q s
  unfold srcReset
  dsimp only
  cases s.source with
  | none => exact .refused _
  | some src => exact .next rfl

/-! ### The loops of the commands -/

theorem countLoop_keepsOrHalts (passes : Nat) : KeepsOrHalts (countLoop passes) := by
  induction passes with
  | zero => exact fun _ _ => .fault _
  | succ passes ih =>
    intro q s
    unfold countLoop
    rcases srcRead_steps q 8 s with ⟨r, hs, ht⟩ | ⟨u, hs, ht⟩ | ⟨b, u, hs, ht⟩ <;> rw [hs, ht]
    · exact .refused r
    · exact .next (.inl rfl)
    · exact .ite (c := u.freqAt b < 2 ^ u.cntW - 1) (fun _ => ih q _) fun _ => keepsOrHalts_raise _ q _

theorem addLeaves_withSteps (k : Nat) (counts : List Nat) (s : State) :
    addLeaves k counts { s with seq := q } = { addLeaves k counts s with seq := q } := by
  induction counts generalizing k s with
  | nil => rfl
  | cons n counts ih =>
    unfold addLeaves
    split
    · exact ih (k + 1) (addLeaf (BitVec.ofNat 9 k) n s)
    · exact ih (k + 1) s

theorem addFiller_withSteps (s : State) : addFiller { s with seq := q } = { addFiller s with seq := q } := by
  have same : emptyInput { s with seq := q } = emptyInput s := rfl
  unfold addFiller
  rw [same]
  split
  · rfl
  · rfl

theorem placeLeaves_withSteps (s : State) : placeLeaves { s with seq := q } = { placeLeaves s with seq := q } :=
  (congrArg (addLeaves 0 s.freq.toList) (addFiller_withSteps { s with nalloc := 0, pq := [] })).trans
    (addLeaves_withSteps _ _ _)

theorem removeMin_steps (q : List MacroStep) (s : State) :
    (s.removeMin = none ∧ ({ s with seq := q } : State).removeMin = none) ∨
      ∃ i u, s.removeMin = some (i, u) ∧ ({ s with seq := q } : State).removeMin = some (i, { u with seq := q }) := by
  have same : ({ s with seq := q } : State).leastOf s.pq = s.leastOf s.pq := leastOf_congr fun _ _ => rfl
  cases hl : s.leastOf s.pq with
  | none => exact .inl ⟨by simp only [State.removeMin, hl], by simp only [State.removeMin, same, hl]⟩
  | some i =>
    exact .inr ⟨i, _, removeMin_of_leastOf hl, removeMin_of_leastOf (s := { s with seq := q }) (same.trans hl)⟩

theorem mergeLoop_keepsSteps (passes : Nat) : KeepsSteps (mergeLoop passes) := by
  induction passes with
  | zero => exact fun _ _ => .fault _
  | succ passes ih =>
    intro q s
    unfold mergeLoop
    refine .ite (fun _ => .next rfl) fun _ => ?_
    rcases removeMin_steps q s with ⟨hs, ht⟩ | ⟨a, u, hs, ht⟩ <;> rw [hs, ht]
    · exact .fault _
    · dsimp only
      rcases removeMin_steps q u with ⟨hs, ht⟩ | ⟨b, v, hs, ht⟩ <;> rw [hs, ht]
      · exact .fault _
      · exact ih q _

theorem takeRoot_keepsSteps : KeepsSteps takeRoot := by
  intro q s
  unfold takeRoot
  rcases removeMin_steps q s with ⟨hs, ht⟩ | ⟨i, u, hs, ht⟩ <;> rw [hs, ht]
  · exact .fault _
  · exact .next rfl

theorem recordCode_keepsSteps (sym : Sym) (path : Bits) : KeepsSteps (recordCode sym path) :=
  fun _ _ => .ite (fun _ => .next rfl) fun _ => .fault _

theorem codeWalk_keepsSteps (depth : Nat) (i : Idx) (path : Bits) : KeepsSteps (codeWalk depth i path) := by
  induction depth generalizing i path with
  | zero => exact fun _ _ => .fault _
  | succ depth ih =>
    intro q s
    have same : ({ s with seq := q } : State).readNode i = s.readNode i := rfl
    unfold codeWalk
    rw [same]
    cases s.readNode i with
    | none => exact .fault _
    | some e =>
      dsimp only
      cases e.kind with
      | leaf => exact recordCode_keepsSteps _ _ q s
      | internal => exact (ih _ _ q s).andThen fun _ _ h => (ih _ _).of_sameBut h

theorem putTree_keepsSteps (depth : Nat) (i : Idx) : KeepsSteps (putTree depth i) := by
  induction depth generalizing i with
  | zero => exact fun _ _ => .fault _
  | succ depth ih =>
    intro q s
    have same : ({ s with seq := q } : State).readNode i = s.readNode i := rfl
    unfold putTree
    rw [same]
    cases s.readNode i with
    | none => exact .fault _
    | some e =>
      dsimp only
      cases e.kind with
      | leaf => exact (sinkWrite_keepsSteps _ _ q s).andThen fun _ _ h => (sinkWrite_keepsSteps _ _).of_sameBut h
      | internal =>
        exact (sinkWrite_keepsSteps _ _ q s).andThen fun _ _ h => ((ih _).of_sameBut h).andThen fun _ _ h =>
          (ih _).of_sameBut h

theorem emitPieces_keepsSteps (pieces r : Nat) (val : BitVec 256) : KeepsSteps (emitPieces pieces r val) := by
  induction pieces generalizing r with
  | zero => exact fun _ _ => .fault _
  | succ pieces ih =>
    exact fun q s => .ite (fun _ => (sinkWrite_keepsSteps _ _ q s).andThen fun _ _ h => (ih _).of_sameBut h) fun _ =>
      sinkWrite_keepsSteps _ _ q s

theorem emitSentinel_keepsSteps : KeepsSteps emitSentinel :=
  fun q s => .ite (c := (s.codeAt 256).valid = true) (fun _ => emitPieces_keepsSteps _ _ _ q s) fun _ => .fault _

theorem encodeLoop_keepsOrHalts (passes : Nat) : KeepsOrHalts (encodeLoop passes) := by
  induction passes with
  | zero => exact fun _ _ => .fault _
  | succ passes ih =>
    intro q s
    unfold encodeLoop
    rcases srcRead_steps q 8 s with ⟨r, hs, ht⟩ | ⟨u, hs, ht⟩ | ⟨b, u, hs, ht⟩ <;> rw [hs, ht]
    · exact .refused r
    · exact emitSentinel_keepsSteps.keepsOrHalts q u
    · refine .ite (c := (u.codeAt b).valid = true) (fun _ => ?_) fun _ => keepsOrHalts_raise _ q u
      exact (emitPieces_keepsSteps _ _ _ q u).andThen fun _ _ h => ih.of_sameBut h

theorem decodeLoop_keepsOrHalts (passes : Nat) : KeepsOrHalts (decodeLoop passes) := by
  induction passes with
  | zero => exact fun _ _ => .fault _
  | succ passes ih =>
    intro q s
    unfold decodeLoop
    rcases srcRead_steps q 1 s with ⟨r, hs, ht⟩ | ⟨u, hs, ht⟩ | ⟨b, u, hs, ht⟩ <;> rw [hs, ht]
    · exact .refused r
    · exact keepsOrHalts_raise _ q u
    · have same (i : Idx) : ({ u with seq := q } : State).readNode i = u.readNode i := rfl
      dsimp only
      rw [same]
      cases u.readNode u.cur with
      | none => exact .fault _
      | some here =>
        dsimp only
        rw [same]
        cases u.readNode (childOf here b) with
        | none => exact .fault _
        | some e =>
          dsimp only
          cases e.kind with
          | internal => exact ih q _
          | leaf =>
            refine .ite (fun _ => .next (.inl rfl)) fun _ => (sinkWrite_keepsSteps _ _ q u).andThen fun v _ h => ?_
            subst h
            exact ih q v.cursorToRoot

/-! ### The tokens of a header -/

theorem fetchMagic_steps (q : List MacroStep) (s : State) :
    FetchedRel (State.SameBut q) (State.Resumed q) (fetchMagic s) (fetchMagic { s with seq := q }) := by
  unfold fetchMagic
  rcases srcRead_steps q Config.magicW s with ⟨r, hs, ht⟩ | ⟨u, hs, ht⟩ | ⟨b, u, hs, ht⟩ <;> rw [hs, ht]
  · exact .ended (.refused r)
  · exact .ended (keepsOrHalts_raise _ q u)
  · dsimp only
    cases decode (.wire (bitsOf Config.magicW b)) with
    | ok i => exact .got i rfl
    | error e => exact .ended (keepsOrHalts_raise _ q u)

theorem fetchTreeToken_steps (q : List MacroStep) (s : State) :
    FetchedRel (State.SameBut q) (State.Resumed q) (fetchTreeToken s) (fetchTreeToken { s with seq := q }) := by
  unfold fetchTreeToken
  rcases srcRead_steps q 1 s with ⟨r, hs, ht⟩ | ⟨u, hs, ht⟩ | ⟨b, u, hs, ht⟩ <;> rw [hs, ht]
  · exact .ended (.refused r)
  · exact .ended (keepsOrHalts_raiseInTree _ q u)
  · dsimp only
    split
    · cases decode (.wire (bitsOf 1 b)) with
      | ok i => exact .got i rfl
      | error e => exact .ended (keepsOrHalts_raiseInTree _ q u)
    · rcases srcRead_steps q Config.symfW u with ⟨r, hs, ht⟩ | ⟨v, hs, ht⟩ | ⟨x, v, hs, ht⟩ <;> rw [hs, ht]
      · exact .ended (.refused r)
      · exact .ended (keepsOrHalts_raiseInTree _ q { v with nalloc := v.nalloc + 1 })
      · dsimp only
        cases decode (.wire (bitsOf 1 b ++ bitsOf Config.symfW x)) with
        | ok i => exact .got i rfl
        | error e => exact .ended (keepsOrHalts_raiseInTree _ q v)

theorem fetchWire_steps (h : s.SameBut q t) :
    FetchedRel (State.SameBut q) (State.Resumed q) (fetchWire s) (fetchWire t) := by
  unfold fetchWire
  rw [h.activity]
  subst h
  split
  · exact .ended (.refused _)
  · exact fetchMagic_steps q s
  · exact fetchTreeToken_steps q s

theorem awaitNode_keepsOrHalts (stk : List Frame) : KeepsOrHalts (awaitNode stk) :=
  fun q s => .ite (fun _ => .next (.inl rfl)) fun _ => keepsOrHalts_raiseInTree _ q s

theorem returnSubtree_keepsOrHalts (stk : List Frame) (i : Idx) : KeepsOrHalts (returnSubtree stk i) := by
  induction stk generalizing i with
  | nil => exact fun _ _ => .next (.inl rfl)
  | cons f stk ih =>
    obtain ⟨p, done⟩ := f
    cases done with
    | false => exact awaitNode_keepsOrHalts _
    | true => exact fun q s => ih p q (setChildren p (p + 1) i s)

theorem execWMagic_keepsOrHalts : KeepsOrHalts execWMagic := by
  refine keepsOrHalts_of_sameBut fun q s t h => ?_
  unfold execWMagic
  rw [h.activity]
  subst h
  split
  · exact .next (.inl rfl)
  all_goals exact .refused _

theorem execWInode_keepsOrHalts : KeepsOrHalts execWInode := by
  refine keepsOrHalts_of_sameBut fun q s t h => ?_
  unfold execWInode
  rw [h.activity]
  subst h
  split
  · exact .ite (fun _ => (awaitNode_keepsOrHalts _).of_sameBut rfl) fun _ => keepsOrHalts_raiseInTree _ q s
  all_goals exact .refused _

theorem execWLeaf_keepsOrHalts (sym : Nat) : KeepsOrHalts (execWLeaf sym) := by
  refine keepsOrHalts_of_sameBut fun q s t h => ?_
  unfold execWLeaf
  rw [h.activity]
  subst h
  split
  · exact .ite (fun _ => (returnSubtree_keepsOrHalts _ _).of_sameBut rfl) fun _ => keepsOrHalts_raiseInTree _ q s
  all_goals exact .refused _

theorem runToken_keepsOrHalts (i : Instr) : KeepsOrHalts (runToken i) := by
  cases i with
  | wMagic => exact execWMagic_keepsOrHalts
  | wInode => exact execWInode_keepsOrHalts
  | wLeaf sym => exact execWLeaf_keepsOrHalts sym
  | _ => exact fun _ _ => .refused _

theorem takeToken_keepsOrHalts : KeepsOrHalts takeToken :=
  fun _ _ => takeToken_rel (fetchWire_steps rfl) fun i _ _ => (runToken_keepsOrHalts i).of_sameBut

theorem tokenLoop_keepsOrHalts (passes : Nat) : KeepsOrHalts (tokenLoop passes) := by
  induction passes with
  | zero => exact fun _ _ => .fault _
  | succ passes ih =>
    refine fun q s => (takeToken_keepsOrHalts q s).andThen fun u v h => ?_
    obtain h | ⟨hf, idle, rfl⟩ := h
    · rw [h.activity]
      split
      · exact ih.of_sameBut h
      all_goals exact .next (.inl h)
    · rw [idle]
      exact .next (.inr ⟨hf, idle, rfl⟩)

/-! ### A step is its command -/

theorem execCount_keepsOrHalts : KeepsOrHalts execCount :=
  unlessFaulted_keepsOrHalts fun q s =>
    releaseScratch_resumed (countLoop_keepsOrHalts s.passes q s.invalidateFreq.zeroFreq)

theorem buildTree_keepsOrHalts :
    KeepsOrHalts fun s => releaseScratch (andThen (mergeLoop Config.nsym.succ (placeLeaves s.invalidateTree)) takeRoot) := by
  intro q s
  have placed : (placeLeaves s.invalidateTree).SameBut q (placeLeaves { s with seq := q }.invalidateTree) :=
    placeLeaves_withSteps s.invalidateTree
  refine releaseScratch_resumed (OutcomeRel.mono ?_ fun _ _ => .inl)
  exact ((mergeLoop_keepsSteps _).of_sameBut placed).andThen fun _ _ h => takeRoot_keepsSteps.of_sameBut h

theorem execBuild_keepsOrHalts : KeepsOrHalts execBuild :=
  unlessFaulted_keepsOrHalts fun _ s => requireFlags_rel_of_keepsOrHalts buildTree_keepsOrHalts s.status.freqValid

theorem writeCodes_keepsOrHalts :
    KeepsOrHalts fun s => releaseScratch
      (andThen (codeWalk Config.nodeCap s.root [] s.invalidateCode.dropCodes) fun s => .next s.validateCode) := by
  refine fun q s => releaseScratch_resumed ((codeWalk_keepsSteps _ s.root [] q s.invalidateCode.dropCodes).andThen ?_)
  rintro u _ rfl
  exact .next (.inl rfl)

theorem execGencode_keepsOrHalts : KeepsOrHalts execGencode :=
  unlessFaulted_keepsOrHalts fun _ s =>
    requireFlags_rel_of_keepsOrHalts writeCodes_keepsOrHalts (s.status.treeValid && s.status.treeBuilt)

theorem execWrmagic_keepsOrHalts : KeepsOrHalts execWrmagic :=
  unlessFaulted_keepsOrHalts (sinkWrite_keepsSteps _ _).keepsOrHalts

theorem writeTree_keepsOrHalts : KeepsOrHalts fun s => releaseScratch (putTree Config.nodeCap s.root s) :=
  fun q s => releaseScratch_resumed ((putTree_keepsSteps _ s.root).keepsOrHalts q s)

theorem execWrhdr_keepsOrHalts : KeepsOrHalts execWrhdr :=
  unlessFaulted_keepsOrHalts fun _ s => requireFlags_rel_of_keepsOrHalts writeTree_keepsOrHalts s.status.treeValid

theorem encodePayload_keepsOrHalts :
    KeepsOrHalts fun s => releaseScratch (andThen (srcReset s) fun s => encodeLoop s.passes s) := by
  refine fun q s => releaseScratch_resumed ((srcReset_keepsSteps q s).andThen ?_)
  rintro u _ rfl
  exact encodeLoop_keepsOrHalts u.passes q u

theorem execEncode_keepsOrHalts : KeepsOrHalts execEncode :=
  unlessFaulted_keepsOrHalts fun _ s => requireFlags_rel_of_keepsOrHalts encodePayload_keepsOrHalts s.status.codeValid

theorem execRdmagic_keepsOrHalts : KeepsOrHalts execRdmagic :=
  unlessFaulted_keepsOrHalts fun q s => takeToken_keepsOrHalts q (startMagic s)

theorem execRdhdr_keepsOrHalts : KeepsOrHalts execRdhdr :=
  unlessFaulted_keepsOrHalts fun q s => tokenLoop_keepsOrHalts _ q (startTree s)

theorem execDecode_keepsOrHalts : KeepsOrHalts execDecode := by
  refine unlessFaulted_keepsOrHalts fun _ s => requireFlags_rel_of_keepsOrHalts (fun q s => ?_) s.status.treeValid
  have same : ({ s with seq := q } : State).readNode s.root = s.readNode s.root := rfl
  dsimp only
  rw [same]
  cases s.readNode s.root with
  | none => exact .fault _
  | some e =>
    dsimp only
    cases e.kind with
    | leaf => exact keepsOrHalts_raise _ q s
    | internal => exact decodeLoop_keepsOrHalts s.passes q s.cursorToRoot

theorem runStep_keepsOrHalts (m : MacroStep) : KeepsOrHalts (runStep m) := by
  cases m with
  | count => exact execCount_keepsOrHalts
  | build => exact execBuild_keepsOrHalts
  | gencode => exact execGencode_keepsOrHalts
  | wrmagic => exact execWrmagic_keepsOrHalts
  | wrhdr => exact execWrhdr_keepsOrHalts
  | encode => exact execEncode_keepsOrHalts
  | rdmagic => exact execRdmagic_keepsOrHalts
  | rdhdr => exact execRdhdr_keepsOrHalts
  | decode => exact execDecode_keepsOrHalts

/-! ### The sequencer -/

theorem isCommand_instr (m : MacroStep) : isCommand m.instr = true := by
  cases m <;> rfl

/-- The states of two runs after a step of a macro: without a fault the steps `ms` are to come in the second, after one none are
to come in either (R15). -/
def State.AtStep (ms : List MacroStep) (s t : State) : Prop :=
  (s.status.faulted = false ∧ s.seq = [] ∧ t = { s with seq := ms }) ∨ (s.status.faulted = true ∧ t = s)

theorem runStep_atStep (m : MacroStep) (hr : s.status.faulted = false) (hq : s.seq = []) (ms : List MacroStep) :
    OutcomeRel (State.AtStep ms) (runStep m s) (runStep m { s with seq := ms }) := by
  have quiet : AllNext (fun t => t.seq = []) (runStep m s) := exec_instr m s ▸ seq_exec (isCommand_instr m) hq
  have halts : AllNext (fun t => t.status.faulted = true → t.seq = []) (runStep m { s with seq := ms }) :=
    (runStep_allows m _).mono fun t allows hf => ((allows.halts hf).resolve_left (hr ▸ nofun)).2
  have resumed := runStep_keepsOrHalts m ms s
  generalize runStep m s = o, runStep m { s with seq := ms } = p at quiet halts resumed
  cases resumed with
  | fault r => exact .fault r
  | refused r => exact .refused r
  | @next u v h =>
    have none_left := quiet u rfl
    obtain rfl | ⟨hf, -, rfl⟩ := h
    · cases hf : u.status.faulted with
      | false => exact .next (.inl ⟨hf, none_left, rfl⟩)
      | true =>
        have dropped : ms = [] := halts _ rfl hf
        exact .next (.inr ⟨hf, by rw [dropped, ← none_left]⟩)
    · exact .next (.inr ⟨hf, rfl⟩)

theorem outcomeRel_eq_iff {o p : Outcome} : OutcomeRel Eq o p ↔ o = p := by
  constructor
  · intro h
    cases h with
    | next h => exact congrArg _ h
    | fault | refused => rfl
  · rintro rfl
    cases o with
    | next t => exact .next rfl
    | fault r => exact .fault r
    | refused r => exact .refused r

/-- The sequencer answers what the commands issued one after the other answer (R109). -/
theorem execAll_eq_runSteps (ms : List MacroStep) (hr : s.status.faulted = false) (hq : s.seq = [])
    (q : List MacroStep) : execAll (ms.map MacroStep.instr) s = runSteps ms { s with seq := q } := by
  induction ms generalizing s q with
  | nil => exact congrArg (fun q => Host.Outcome.next { s with seq := q }) hq
  | cons m ms ih =>
    rw [List.map_cons, execAll, exec_instr, runSteps]
    refine outcomeRel_eq_iff.1 ((runStep_atStep m hr hq ms).andThen fun u v h => outcomeRel_eq_iff.2 ?_)
    obtain ⟨hf, hu, rfl⟩ | ⟨hf, rfl⟩ := h
    · rw [if_neg (by simp [hf]), if_neg (by simp [hf]), ih hf hu ms]
    · rw [if_pos hf, if_pos hf]

/-- Settles O48: the sequencer and the commands take the same steps. -/
theorem macrosAreTheirSequences : Obligations.MacrosAreTheirSequences := by
  intro s hr hq
  constructor
  · exact (unlessFaulted_ready hr _).trans (execAll_eq_runSteps compressSteps hr hq s.seq).symm
  · exact (unlessFaulted_ready hr _).trans (execAll_eq_runSteps decompressSteps hr hq s.seq).symm

end Sys2Proof.Machine
end

section
/-! SUPPORT. COUNT on an input whose counts fit (40_frequency_counter.md R120 to R122, R124). -/

namespace Sys2Proof.Machine

/-- Settles O17: by `execCount_counts`, an induction over the bytes still to be read, from the table of zeros. -/
theorem countFillsFrequencies : Obligations.CountFillsFrequencies := by
  intro s src hr hs fits
  exact execCount_counts hr hs fits

end Sys2Proof.Machine
end

section
/-! SUPPORT. BUILD node by node (41_tree_builder.md R130 to R138): the leaves it places are the first entries of `NODE`, and each merge
then writes the next entry, over the two nodes of least key among those that wait. The invariant of the merges is `State.Merged`: the
internal nodes made so far are so made, and `PQ` holds exactly the nodes that wait. -/

namespace Sys2Proof.Machine

variable {s t : State} {L k : Nat}

/-! ### Entries of the node array -/

theorem nodeAt_of_node {i : Idx} (h : t.node[i.toNat]? = s.node[i.toNat]?) : t.nodeAt i = s.nodeAt i := by
  rw [State.nodeAt, h, State.nodeAt]

theorem nodeAt_of_node_eq_some {i : Idx} {e : NodeEntry} (h : s.node[i.toNat]? = some e) : s.nodeAt i = e := by
  rw [State.nodeAt, h, Option.getD_some]

/-! ### The leaves in a line -/

/-- What BUILD leaves in `NODE[k]` of a leaf of symbol and weight: `left` and `right` are not written (R36). -/
def State.leafEntry (s : State) (k : Nat) (leaf : Nat × Nat) : NodeEntry :=
  { s.nodeAt (BitVec.ofNat 10 k) with kind := .leaf, sym := BitVec.ofNat 9 leaf.1, weight := leaf.2 }

/-- BUILD, begun in `s`, has placed the leaves `ls` and merged none (R131). -/
structure State.Lined (s : State) (ls : List (Nat × Nat)) (t : State) : Prop where
  nalloc_eq : t.nalloc.toNat = ls.length
  pq_eq     : t.pq.map BitVec.toNat = List.range ls.length
  leaves    : ∀ k leaf, ls[k]? = some leaf → t.node[k]? = some (s.leafEntry k leaf)
  others    : ∀ k, ls.length ≤ k → t.node[k]? = s.node[k]?

theorem State.Lined.placeLeaf {ls : List (Nat × Nat)} (h : s.Lined ls t) (few : ls.length < 513) (leaf : Nat × Nat) :
    s.Lined (ls ++ [leaf]) (placeLeaf t leaf) := by
  have hn : t.nalloc.toNat < 513 := h.nalloc_eq ▸ few
  have old {k : Nat} (hk : k ≠ ls.length) : (Machine.placeLeaf t leaf).node[k]? = t.node[k]? :=
    Vector.getElem?_setIfInBounds_ne (h.nalloc_eq ▸ hk.symm)
  have new : (Machine.placeLeaf t leaf).node[ls.length]? = some (s.leafEntry ls.length leaf) := by
    have index : t.nalloc = BitVec.ofNat 10 ls.length := by
      rw [← h.nalloc_eq, BitVec.ofNat_toNat, BitVec.setWidth_eq]
    have before : t.nodeAt t.nalloc = s.nodeAt t.nalloc := nodeAt_of_node (h.others _ h.nalloc_eq.ge)
    rw [State.leafEntry, ← index, ← before, ← h.nalloc_eq]
    exact Vector.getElem?_setIfInBounds_self_of_lt hn
  constructor
  · rw [Machine.placeLeaf, addLeaf_nalloc, toNat_succ_of_lt hn, h.nalloc_eq, List.length_append, List.length_singleton]
  · rw [Machine.placeLeaf, addLeaf_pq, List.map_append, h.pq_eq, List.map_singleton, h.nalloc_eq, List.length_append,
      List.length_singleton, List.range_succ]
  · intro k l hl
    rcases Nat.lt_trichotomy k ls.length with hk | rfl | hk
    · rw [List.getElem?_append_left hk] at hl
      rw [old hk.ne, h.leaves k l hl]
    · rw [List.getElem?_concat_length] at hl
      cases hl
      exact new
    · rw [List.getElem?_eq_none (by simpa using hk)] at hl
      cases hl
  · intro k hk
    rw [List.length_append, List.length_singleton] at hk
    rw [old (by omega), h.others k (by omega)]

/-- BUILD places its leaves in a line, the filler of an empty input first (R131, R133). -/
theorem lined_placeLeaves (s : State) : s.Lined s.leafList (placeLeaves s) := by
  have start : s.Lined [] { s with nalloc := 0, pq := [] } := ⟨rfl, rfl, nofun, fun _ _ => rfl⟩
  have line (ls done : List (Nat × Nat)) {t : State} (h : s.Lined done t) (few : done.length + ls.length ≤ 513) :
      s.Lined (done ++ ls) (ls.foldl placeLeaf t) := by
    induction ls generalizing done t with
    | nil => rwa [List.append_nil]
    | cons leaf ls ih =>
      rw [List.length_cons] at few
      rw [List.append_cons]
      exact ih _ (h.placeLeaf (by omega) leaf) (by rw [List.length_append, List.length_singleton]; omega)
  have few := length_leafList_le s
  rw [placeLeaves_eq_foldl]
  exact line s.leafList [] start (by rw [List.length_nil]; omega)

/-! ### The pair of least key -/

theorem keyBefore_irrefl (s : State) (i : Idx) : ¬ keyBefore s i i := by
  simp [keyBefore]

/-- The state before the node of a merge is written: its children are out of `PQ` (R134). -/
def State.dropPair (a b : Idx) (s : State) : State := { s with pq := (s.pq.erase a).erase b }

@[simp] theorem dropPair_pq (a b : Idx) (s : State) : (s.dropPair a b).pq = (s.pq.erase a).erase b := rfl

/-- While `PQ` holds two indices or more, two calls of `removeMin` take the two of least key, the lesser first (R132). -/
theorem removeMin_pair (hn : s.pq.Nodup) (two : 2 ≤ s.pq.length) :
    ∃ a b, s.removeMin = some (a, { s with pq := s.pq.erase a }) ∧
      ({ s with pq := s.pq.erase a } : State).removeMin = some (b, s.dropPair a b) ∧
      a ∈ s.pq ∧ b ∈ s.pq.erase a ∧ keyBefore s a b ∧ ∀ j ∈ s.pq, j ≠ a → j ≠ b → keyBefore s b j := by
  obtain ⟨a, ha, mem_a, least_a⟩ := removeMinTakesLeast s (List.ne_nil_of_length_pos (by omega))
  have len := List.length_erase_of_mem mem_a
  obtain ⟨b, hb, mem_b, least_b⟩ := removeMinTakesLeast { s with pq := s.pq.erase a }
    (List.ne_nil_of_length_pos (by dsimp only; omega))
  obtain ⟨hba, hbs⟩ := hn.mem_erase_iff.1 mem_b
  exact ⟨a, b, ha, hb, mem_a, mem_b, (least_a b hbs).resolve_left hba,
    fun j hj hja hjb => (least_b j (hn.mem_erase_iff.2 ⟨hja, hj⟩)).resolve_left hjb⟩

theorem mergeLoop_done (one : s.pq.length ≤ 1) (passes : Nat) : mergeLoop (passes + 1) s = .next s := by
  rw [mergeLoop, if_pos one]

theorem mergeLoop_merge {a b : Idx} (two : 2 ≤ s.pq.length) (ha : s.removeMin = some (a, { s with pq := s.pq.erase a }))
    (hb : ({ s with pq := s.pq.erase a } : State).removeMin = some (b, s.dropPair a b)) (passes : Nat) :
    mergeLoop (passes + 1) s = mergeLoop passes (addInternal a b (s.dropPair a b)) := by
  rw [mergeLoop, if_neg (by omega)]
  simp only [ha, hb]

/-! ### What a merge makes -/

/-- Node `k` was made of the two waiting nodes of least key, as BuildMergesLightestPair says (R132, R134, R136). -/
def State.MergesLightest (t : State) (L k : Nat) : Prop :=
  ∃ e, t.node[k]? = some e ∧ e.kind = .internal ∧ e.sym = 0 ∧
    e.weight = (t.nodeAt e.left).weight + (t.nodeAt e.right).weight ∧
    waitsFor t L k e.left ∧ waitsFor t L k e.right ∧ keyBefore t e.left e.right ∧
    ∀ j, waitsFor t L k j → j ≠ e.left → j ≠ e.right → keyBefore t e.right j

theorem keyBefore_of_node {i j : Idx} (hi : t.node[i.toNat]? = s.node[i.toNat]?)
    (hj : t.node[j.toNat]? = s.node[j.toNat]?) : keyBefore t i j ↔ keyBefore s i j := by
  rw [keyBefore, nodeAt_of_node hi, nodeAt_of_node hj, keyBefore]

/-- Which nodes waited for node `k` is told by the entries before it. -/
theorem waitsFor_of_node {j : Idx} (same : ∀ i < k, t.node[i]? = s.node[i]?) : waitsFor t L k j ↔ waitsFor s L k j := by
  refine and_congr_right fun _ => forall₂_congr fun k' e => imp_congr_right fun _ => forall_congr' fun hk => ?_
  rw [same k' hk]

theorem State.MergesLightest.of_node (h : s.MergesLightest L k) (same : ∀ i ≤ k, t.node[i]? = s.node[i]?) :
    t.MergesLightest L k := by
  obtain ⟨e, he, kind, sym, weight, left, right, ordered, least⟩ := h
  have waits {j : Idx} : waitsFor t L k j ↔ waitsFor s L k j := waitsFor_of_node fun i hi => same i hi.le
  have at_eq {j : Idx} (hj : waitsFor s L k j) : t.node[j.toNat]? = s.node[j.toNat]? := same _ hj.1.le
  refine ⟨e, (same k le_rfl).trans he, kind, sym, ?_, waits.2 left, waits.2 right,
    (keyBefore_of_node (at_eq left) (at_eq right)).2 ordered, fun j hj hjl hjr => ?_⟩
  · rw [nodeAt_of_node (at_eq left), nodeAt_of_node (at_eq right), weight]
  · have hj := waits.1 hj
    exact (keyBefore_of_node (at_eq right) (at_eq hj)).2 (least j hj hjl hjr)

/-- Before the first merge every leaf waits. -/
theorem waitsFor_leaves {j : Idx} : waitsFor t L L j ↔ j.toNat < L :=
  ⟨And.left, fun hj => ⟨hj, fun _ _ hle hlt => absurd hlt (by omega)⟩⟩

/-- After node `k` those wait that waited, without its children, and the node itself, which is no child of an earlier one. -/
theorem waitsFor_succ {e : NodeEntry} (hL : L ≤ k) (he : t.node[k]? = some e)
    (earlier : ∀ k', L ≤ k' → k' < k → t.MergesLightest L k') (hl : e.left.toNat < k) (hr : e.right.toNat < k) {j : Idx} :
    waitsFor t L (k + 1) j ↔ (waitsFor t L k j ∧ j ≠ e.left ∧ j ≠ e.right) ∨ j.toNat = k := by
  constructor
  · rintro ⟨lt, free⟩
    by_cases hj : j.toNat = k
    · exact .inr hj
    · exact .inl ⟨⟨by omega, fun k' e' hk' lt' => free k' e' hk' (by omega)⟩, free k e hL (by omega) he⟩
  · rintro (⟨⟨lt, free⟩, hjl, hjr⟩ | rfl)
    · refine ⟨by omega, fun k' e' hk' lt' he' => ?_⟩
      by_cases hk : k' = k
      · subst hk
        cases he.symm.trans he'
        exact ⟨hjl, hjr⟩
      · exact free k' e' hk' (by omega) he'
    · have not_child {e' : NodeEntry} (hl : e'.left.toNat < j.toNat) (hr : e'.right.toNat < j.toNat) :
          j ≠ e'.left ∧ j ≠ e'.right := ⟨fun h => (h ▸ hl).false, fun h => (h ▸ hr).false⟩
      refine ⟨Nat.lt_succ_self _, fun k' e' hk' lt' he' => ?_⟩
      rcases Nat.lt_succ_iff_lt_or_eq.1 lt' with lt' | rfl
      · obtain ⟨m, hm, -, -, -, left, right, -⟩ := earlier k' hk' lt'
        cases hm.symm.trans he'
        exact not_child (left.1.trans lt') (right.1.trans lt')
      · cases he.symm.trans he'
        exact not_child hl hr

/-! ### The merges -/

/-- BUILD has placed `L` leaves, which `s` holds, and merged some of them: every internal node so far is made as R134 says, and `PQ`
holds the nodes that wait. -/
structure State.Merged (s : State) (L : Nat) (t : State) : Prop where
  le        : L ≤ t.nalloc.toNat
  nalloc_pq : t.nalloc.toNat + t.pq.length = 2 * L
  nodup     : t.pq.Nodup
  waits     : ∀ j, j ∈ t.pq ↔ waitsFor t L t.nalloc.toNat j
  merges    : ∀ k, L ≤ k → k < t.nalloc.toNat → t.MergesLightest L k
  others    : ∀ k, k < L ∨ t.nalloc.toNat ≤ k → t.node[k]? = s.node[k]?

theorem State.Lined.merged {ls : List (Nat × Nat)} (h : s.Lined ls t) : t.Merged ls.length t where
  le := h.nalloc_eq.ge
  nalloc_pq := by
    have len := congrArg List.length h.pq_eq
    rw [List.length_map, List.length_range] at len
    rw [h.nalloc_eq, len, two_mul]
  nodup := List.Nodup.of_map BitVec.toNat (h.pq_eq ▸ List.nodup_range)
  waits j := by
    rw [h.nalloc_eq, waitsFor_leaves, ← List.mem_range, ← h.pq_eq, List.mem_map_of_injective BitVec.toNat_injective]
  merges k hle hlt := absurd hlt (by rw [h.nalloc_eq]; omega)
  others _ _ := rfl

/-- A merge (R134). -/
theorem State.Merged.merge {a b : Idx} (h : s.Merged L t) (hL : L ≤ 257) (two : 2 ≤ t.pq.length) (ha : a ∈ t.pq)
    (hb : b ∈ t.pq.erase a) (hab : keyBefore t a b) (least : ∀ j ∈ t.pq, j ≠ a → j ≠ b → keyBefore t b j) :
    s.Merged L (addInternal a b (t.dropPair a b)) := by
  have room := h.nalloc_pq
  have hn : t.nalloc.toNat < 513 := by omega
  have hb' : b ∈ t.pq := List.mem_of_mem_erase hb
  have lt {j : Idx} (hj : j ∈ t.pq) : j.toNat < t.nalloc.toNat := ((h.waits j).1 hj).1
  generalize hu : addInternal a b (t.dropPair a b) = u
  have nalloc : u.nalloc.toNat = t.nalloc.toNat + 1 := by rw [← hu]; exact toNat_succ_of_lt hn
  have pq : u.pq = (t.pq.erase a).erase b ++ [t.nalloc] := by rw [← hu]; rfl
  have new : u.node[t.nalloc.toNat]? = some (t.mergeOf a b) := by
    rw [← hu]; exact Vector.getElem?_setIfInBounds_self_of_lt hn
  have old {k : Nat} (hk : k ≠ t.nalloc.toNat) : u.node[k]? = t.node[k]? := by
    rw [← hu]; exact Vector.getElem?_setIfInBounds_ne hk.symm
  have waits {j : Idx} : waitsFor u L t.nalloc.toNat j ↔ j ∈ t.pq :=
    (waitsFor_of_node fun i hi => old hi.ne).trans (h.waits j).symm
  have key {i j : Idx} (hi : i ∈ t.pq) (hj : j ∈ t.pq) : keyBefore u i j ↔ keyBefore t i j :=
    keyBefore_of_node (old (lt hi).ne) (old (lt hj).ne)
  have earlier (k : Nat) (hk : L ≤ k) (hlt : k < t.nalloc.toNat) : u.MergesLightest L k :=
    (h.merges k hk hlt).of_node fun i hi => old (by omega)
  have made : u.MergesLightest L t.nalloc.toNat := by
    refine ⟨_, new, rfl, rfl, ?_, waits.2 ha, waits.2 hb', (key ha hb').2 hab, fun j hj hja hjb => ?_⟩
    · dsimp only [State.mergeOf]
      rw [nodeAt_of_node (old (lt ha).ne), nodeAt_of_node (old (lt hb').ne)]
    · exact (key hb' (waits.1 hj)).2 (least j (waits.1 hj) hja hjb)
  have mem {j : Idx} : j ∈ (t.pq.erase a).erase b ↔ j ∈ t.pq ∧ j ≠ a ∧ j ≠ b := by
    rw [(h.nodup.erase a).mem_erase_iff, h.nodup.mem_erase_iff]
    tauto
  exact
    { le := by have := h.le; omega
      nalloc_pq := by
        have len := List.length_erase_of_mem ha
        have len' := List.length_erase_of_mem hb
        rw [nalloc, pq, List.length_append, List.length_singleton]
        omega
      nodup := by
        rw [pq, ← List.concat_eq_append]
        exact ((h.nodup.erase a).erase b).concat fun hm => (lt (mem.1 hm).1).false
      waits := fun j => by
        rw [nalloc, waitsFor_succ h.le new earlier (lt ha) (lt hb'), waits, pq, List.mem_append, mem, List.mem_singleton,
          BitVec.toNat_inj]
        rfl
      merges := fun k hk hlt => by
        rw [nalloc] at hlt
        rcases Nat.lt_succ_iff_lt_or_eq.1 hlt with hlt | rfl
        · exact earlier k hk hlt
        · exact made
      others := fun k hk => by
        have := h.le
        rw [nalloc] at hk
        rw [old (by omega), h.others k (by omega)] }

/-- The loop ends, with one index in `PQ` (R130, R134). -/
theorem State.Merged.mergeLoop (h : s.Merged L t) (hL : L ≤ 257) {passes : Nat} (hp : t.pq.length ≤ passes)
    (pos : 0 < t.pq.length) : ∃ u, mergeLoop passes t = .next u ∧ s.Merged L u ∧ u.pq.length = 1 := by
  induction passes generalizing t with
  | zero => omega
  | succ passes ih =>
    by_cases two : 2 ≤ t.pq.length
    · obtain ⟨a, b, ha, hb, mem_a, mem_b, ordered, least⟩ := removeMin_pair h.nodup two
      have merged := h.merge hL two mem_a mem_b ordered least
      have len : (addInternal a b (t.dropPair a b)).pq.length + 1 = t.pq.length := by
        have len := List.length_erase_of_mem mem_a
        have len' := List.length_erase_of_mem mem_b
        rw [addInternal_pq, dropPair_pq, List.length_append, List.length_singleton]
        omega
      rw [mergeLoop_merge two ha hb]
      exact ih merged (by omega) (by omega)
    · exact ⟨t, mergeLoop_done (by omega) passes, h, by omega⟩

/-! ### The root -/

/-- The last node made waits: no earlier one has it as a child. -/
theorem State.Merged.last_waits (h : s.Merged L t) {j : Idx} (hj : j.toNat + 1 = t.nalloc.toNat) :
    j ∈ t.pq := by
  refine (h.waits j).2 ⟨by omega, fun k e hk hlt he => ?_⟩
  obtain ⟨m, hm, -, -, -, left, right, -⟩ := h.merges k hk hlt
  cases hm.symm.trans he
  have hl := left.1
  have hr := right.1
  exact ⟨fun heq => by rw [← heq] at hl; omega, fun heq => by rw [← heq] at hr; omega⟩

/-- `ROOT` is the last node made (R135). -/
theorem State.Merged.takeRoot (h : s.Merged L t) (hL : L ≤ 257) (one : t.pq.length = 1) :
    takeRoot t = .next { t with root := BitVec.ofNat 10 (2 * L - 2), pq := [] }.validateBuiltTree := by
  obtain ⟨r, hr⟩ := List.length_eq_one_iff.1 one
  have nalloc := h.nalloc_pq
  have hle := h.le
  have index : (BitVec.ofNat 10 (2 * L - 2)).toNat = 2 * L - 2 := by
    rw [BitVec.toNat_ofNat]
    exact Nat.mod_eq_of_lt (by omega)
  have last := h.last_waits (j := BitVec.ofNat 10 (2 * L - 2)) (by omega)
  rw [hr, List.mem_singleton] at last
  have removed : t.removeMin = some (r, { t with pq := t.pq.erase r }) := removeMin_of_leastOf (by rw [hr]; rfl)
  rw [Machine.takeRoot, removed, last, hr, List.erase_cons_head]

/-! ### BUILD -/

/-- What BUILD, begun in `s`, leaves of the leaves it placed and of the nodes it made (R130 to R136). -/
structure State.Built (s t : State) : Prop where
  nalloc_eq : t.nalloc = BitVec.ofNat 10 (2 * s.leafList.length - 1)
  root_eq   : t.root = BitVec.ofNat 10 (2 * s.leafList.length - 2)
  pq_eq     : t.pq = []
  leaves    : ∀ k leaf, s.leafList[k]? = some leaf → t.node[k]? = some (s.leafEntry k leaf)
  merges    : ∀ k, s.leafList.length ≤ k → k < 2 * s.leafList.length - 1 → t.MergesLightest s.leafList.length k
  others    : ∀ k, 2 * s.leafList.length - 1 ≤ k → t.node[k]? = s.node[k]?

theorem execBuild_nodes (hr : s.status.faulted = false) (hv : s.status.freqValid = true) (hs : 0 < s.freqAt 256) :
    ∃ t, execBuild s = .next t ∧ s.Built t := by
  have few := length_leafList_le s
  have two := two_le_length_leafList hs
  have lined : s.Lined s.leafList (placeLeaves s.invalidateTree) :=
    have line := lined_placeLeaves s.invalidateTree
    ⟨line.nalloc_eq, line.pq_eq, line.leaves, line.others⟩
  have start := lined.merged
  have count := start.nalloc_pq
  have placed := lined.nalloc_eq
  obtain ⟨u, hu, merged, one⟩ := start.mergeLoop few (passes := Config.nsym.succ) (by simp only [Config.nsym]; omega)
    (by omega)
  have nalloc : u.nalloc.toNat = 2 * s.leafList.length - 1 := by have := merged.nalloc_pq; omega
  refine ⟨State.freeScratch (State.validateBuiltTree { u with
    root := BitVec.ofNat 10 (2 * s.leafList.length - 2), pq := [] }), ?_, ?_⟩
  · rw [execBuild, unlessFaulted_ready hr, hv, requireFlags_true, hu, andThen_next, merged.takeRoot few one,
      releaseScratch_next]
  · exact
      { nalloc_eq := by
          change u.nalloc = _
          rw [← nalloc, BitVec.ofNat_toNat, BitVec.setWidth_eq]
        root_eq := rfl
        pq_eq := rfl
        leaves := fun k leaf hl =>
          (merged.others k (.inl (List.getElem?_eq_some_iff.1 hl).1)).trans (lined.leaves k leaf hl)
        merges := fun k hk hlt => (merged.merges k hk (nalloc ▸ hlt)).of_node fun _ _ => rfl
        others := fun k hk => (merged.others k (.inr (nalloc ▸ hk))).trans (lined.others k (by omega)) }

/-- Settles O20: the leaves are placed in a line, and no merge writes among them or from `NALLOC` up. -/
theorem buildPlacesLeavesInOrder : Obligations.BuildPlacesLeavesInOrder := by
  intro s hr hv hs
  obtain ⟨t, ht, built⟩ := execBuild_nodes hr hv hs
  obtain ⟨node, nalloc, root, pq, x, d, rfl⟩ := execBuild_frame hr hv ht
  obtain ⟨rfl, rfl, rfl, leaves, -, others⟩ := built
  exact ⟨node, x, d, ht, two_le_length_leafList hs, length_leafList_le s, fun k sym w => leaves k (sym, w), others⟩

/-- Settles O21: each merge takes its children from `PQ`, which holds the nodes that wait. -/
theorem buildMergesLightestPair : Obligations.BuildMergesLightestPair := by
  intro s hr hv hs
  obtain ⟨t, ht, built⟩ := execBuild_nodes hr hv hs
  exact ⟨t, ht, built.merges⟩

/-! ### The empty input -/

theorem leafList_empty (h256 : s.freqAt 256 = 1) (zero : ∀ k < 256, s.freqAt k = 0) : s.leafList = [(0, 0), (256, 1)] := by
  have filler : ((List.range 256).all fun k => s.freqAt k == 0) = true :=
    List.all_eq_true.2 fun k hk => beq_iff_eq.2 (zero k (List.mem_range.1 hk))
  have counted : (List.range 257).filter (fun k => decide (0 < s.freqAt k)) = [256] := by
    have none : (List.range 256).filter (fun k => decide (0 < s.freqAt k)) = [] :=
      List.filter_eq_nil_iff.2 fun k hk => by simp [zero k (List.mem_range.1 hk)]
    rw [List.range_succ, List.filter_append, none]
    simp [h256]
  rw [State.leafList, if_pos filler, counted, List.map_singleton, h256]
  rfl

/-- The merge of two leaves, node 0 of them the lesser (R134). -/
theorem State.MergesLightest.of_two_leaves (h : t.MergesLightest 2 2) (order : ¬ keyBefore t 1 0) :
    t.node[2]? = some (t.mergeOf 0 1) := by
  obtain ⟨⟨kind, sym, weight, left, right⟩, he, hkind, hsym, hweight, ⟨hl, -⟩, ⟨hr, -⟩, ordered, -⟩ := h
  dsimp only at hkind hsym hweight hl hr ordered
  subst hkind hsym hweight
  have two {i : Idx} (hi : i.toNat < 2) : i = 0 ∨ i = 1 := by bv_omega
  rcases two hl with rfl | rfl <;> rcases two hr with rfl | rfl
  · exact absurd ordered (keyBefore_irrefl t 0)
  · exact he
  · exact absurd ordered order
  · exact absurd ordered (keyBefore_irrefl t 1)

/-- Settles O23: of the two leaves that wait, the filler has the lesser weight. -/
theorem buildOfEmptyInput : Obligations.BuildOfEmptyInput := by
  intro s hr hv h256 zero
  obtain ⟨t, ht, nalloc, root, -, leaves, merges, -⟩ := execBuild_nodes hr hv (by omega)
  rw [leafList_empty h256 zero] at nalloc root leaves merges
  have filler : t.node[0]? = some (s.leafEntry 0 (0, 0)) := leaves 0 _ rfl
  have sentinel : t.node[1]? = some (s.leafEntry 1 (256, 1)) := leaves 1 _ rfl
  have filler_at : t.nodeAt 0 = s.leafEntry 0 (0, 0) := nodeAt_of_node_eq_some filler
  have sentinel_at : t.nodeAt 1 = s.leafEntry 1 (256, 1) := nodeAt_of_node_eq_some sentinel
  have order : ¬ keyBefore t 1 0 := by
    rw [keyBefore, filler_at, sentinel_at]
    simp [State.leafEntry]
  have parent := (merges 2 le_rfl (by decide)).of_two_leaves order
  rw [State.mergeOf, filler_at, sentinel_at] at parent
  have read {i : Idx} {e : NodeEntry} (hi : i.toNat < 3) (he : t.node[i.toNat]? = some e) : t.readNode i = some e := by
    rw [State.readNode, if_pos (by rw [nalloc]; exact hi), he]
  have spans : t.Spans t.root (.node (.leaf 0) (.leaf 256)) [2, 0, 1] :=
    root ▸ .node (i := 2) (read (by decide) parent) rfl (.leaf (i := 0) (read (by decide) filler) rfl)
      (.leaf (i := 1) (read (by decide) sentinel) rfl)
  exact ⟨t, ht, spans.subtree_eq (by decide), root, nalloc, by rw [filler_at]; exact ⟨rfl, rfl, rfl⟩,
    by rw [sentinel_at]; exact ⟨rfl, rfl, rfl⟩, nodeAt_of_node_eq_some (i := 2) parent⟩

end Sys2Proof.Machine
end

section
/-! SUPPORT. The codes of a tree's leaves, and the table GENCODE leaves (42_code_generator.md R150 to R152, R154): a code begins another
only when both are the one leaf's. -/

namespace Sys2Proof.Machine

/-! ### Paths to leaves -/

/-- Two paths that agree as far as the shorter one goes end at the same leaf (R152). -/
theorem eq_of_prefix_of_mem_codes {T : HTree} {x y : Sym} {p q : Bits} (hp : (x, p) ∈ T.codes [])
    (hq : (y, q) ∈ T.codes []) (h : p <+: q) : x = y := by
  induction T generalizing p q with
  | leaf z =>
    cases List.mem_singleton.1 hp
    cases List.mem_singleton.1 hq
    rfl
  | node l r ihl ihr =>
    obtain ⟨b, p', rfl, hp'⟩ := mem_codes_node hp
    obtain ⟨c, q', rfl, hq'⟩ := mem_codes_node hq
    obtain ⟨rfl, h'⟩ := List.cons_prefix_cons.1 h
    cases b with
    | false => exact ihl hp' hq' h'
    | true => exact ihr hp' hq' h'

/-! ### Entries of the table -/

theorem codeOf_val {p : Bits} (hp : p.length ≤ 256) : (codeOf p).val.toNat = intOf p := by
  rw [codeOf, BitVec.toNat_ofNat]
  exact Nat.mod_eq_of_lt (lt_of_lt_of_le (intOf_lt p) (Nat.pow_le_pow_right (by norm_num) hp))

theorem codeBits_codeOf {p : Bits} (hp : p.length ≤ 256) : codeBits (codeOf p) = p := by
  rw [codeBits, codeOf_len hp, codeOf_val hp, bitsOf_intOf]

theorem code_eq_codeAt (s : State) {k : Nat} (hk : k < 257) : s.code[k]? = some (s.codeAt k) := by
  simp [State.codeAt, hk]

/-- Settles O24: the codes of the leaves are written, one entry each, in a table that `dropCodes` has emptied. -/
theorem gencodeRecordsPaths : Obligations.GencodeRecordsPaths := by
  intro s T hr hv hb hT hn hle hd
  refine ⟨_, _, _, execGencode_eq hr hv hb hT hle hd, fun sym p hc => ?_, fun k hk hno => ?_⟩
  · have lt : sym.toNat < 257 := Nat.lt_succ_of_le (hle sym (HTree.mem_syms_of_mem_codes hc))
    have len : p.length ≤ 256 := by
      have long := (HTree.length_of_mem_codes hc).2
      rw [List.length_nil, Nat.zero_add] at long
      exact long.trans hd
    have present := (holdsCodes_withCodes (s := s.invalidateCode) hn hle).present (sym, p) hc
    exact ⟨codeOf p, (code_eq_codeAt _ lt).trans (congrArg some present), rfl, codeOf_len len, codeOf_val len,
      codeBits_codeOf len⟩
  · have other : ∀ c ∈ T.codes [], c.1.toNat ≠ k := by
      rintro ⟨sym, p⟩ hc rfl
      exact hno p (by simpa using hc)
    exact (code_eq_codeAt _ hk).trans
      (congrArg some ((codeAt_withCodes_of_not_mem hk other).trans (codeAt_dropCodes s.invalidateCode k)))

/-- Settles O25: valid codes are paths to leaves of the one tree. -/
theorem codesArePrefixFree : Obligations.CodesArePrefixFree := by
  intro s hr hv hb hok
  obtain ⟨T, hT⟩ := builtOk_iff.1 hok
  obtain ⟨t, ht, codes⟩ := execGencode_built hr hv hb hT
  refine ⟨t, ht, fun a b ha hb' hne hva hvb hpre => hne ?_⟩
  obtain ⟨⟨x, p⟩, hp, rfl, hx⟩ := codes.of_valid ha hva
  obtain ⟨⟨y, q⟩, hq, rfl, hy⟩ := codes.of_valid hb' hvb
  rw [hx, hy, codeBits_codeOf (hT.length_of_mem_codes hp).2, codeBits_codeOf (hT.length_of_mem_codes hq).2] at hpre
  exact congrArg BitVec.toNat (eq_of_prefix_of_mem_codes hp hq hpre)

end Sys2Proof.Machine
end

section
/-! SUPPORT. RDHDR on whole headers (43_header_codec.md R164 to R169): what it leaves of `NODE`, and two headers one after the
other. -/

namespace Sys2Proof.Machine

variable {s t : State} {rest : Bits}

theorem afterHeader_read {src : Source} (hs : s.source = some src) (T : HTree) (node : Vector NodeEntry 513) (x : Scratch)
    (d : Nat) :
    s.afterHeader T node x d = { s with
      node := node
      nalloc := BitVec.ofNat 10 T.size
      root := 0
      status := { s.status with treeValid := true, treeBuilt := false, codeValid := false }
      activity := .idle
      source := some { src with pos := src.pos + T.hdr.length }
      trace := s.trace ++ T.reads
      scratch := x
      draws := d } := by
  rw [State.afterHeader, transfer_read hs]

/-- What RDHDR leaves of `NODE`: the tree at the indices from 0 on, no weight written, the rest of the array as it was (R165, R167). -/
theorem execRdhdr_nodes {T : HTree} (hr : s.status.faulted = false) (hT : T.size ≤ 513) (ht : execRdhdr s = .next t)
    (ha : s.Ahead (T.hdr ++ rest)) :
    t.Spans 0 T (List.range T.size) ∧ (∀ k : Nat, t.node[k]?.map NodeEntry.weight = s.node[k]?.map NodeEntry.weight) ∧
      ∀ k, T.size ≤ k → t.node[k]? = s.node[k]? := by
  obtain ⟨u, read, run⟩ := execRdhdr_hasRead hr hT ha
  cases run.symm.trans ht
  have spans : u.Spans 0 T (List.range T.size) := List.range_eq_range' ▸ read.spans
  exact ⟨spans.congr fun _ _ => rfl, read.weights, fun k hk => read.others k (.inr (by simpa using hk))⟩

/-- Settles O30: the tokens of the header, read from index 0 on, hold the tree in pre-order. -/
theorem rdhdrReadsTree : Obligations.RdhdrReadsTree := by
  intro s src T rest hr hs heos hp hT
  have ahead : s.Ahead (T.hdr ++ rest) := ⟨src, hs, heos, hp⟩
  obtain ⟨node, x, d, run, tree⟩ := execRdhdr_tree hr hT ahead
  obtain ⟨spans, weights, others⟩ := execRdhdr_nodes hr hT run ahead
  rw [afterHeader_read hs] at run tree spans
  exact ⟨node, x, d, run, tree, spans.preorder_eq (spans.depth_lt_nodeCap List.nodup_range), weights, others⟩

/-- Settles O34: after the first header the second stands next. -/
theorem headersAreSelfDelimiting : Obligations.HeadersAreSelfDelimiting := by
  intro s src A B rest hr hs heos hp hA hB
  have ahead : s.Ahead (A.hdr ++ (B.hdr ++ rest)) := ⟨src, hs, heos, by rw [hp, List.append_assoc]⟩
  obtain ⟨node, x, d, run, tree⟩ := execRdhdr_tree hr hA ahead
  have next : (s.afterHeader A node x d).Ahead (B.hdr ++ rest) := ahead.transfer (out := []) (es := A.reads) rfl
  obtain ⟨node', x', d', run', tree'⟩ := execRdhdr_tree (s := s.afterHeader A node x d) hr hB next
  have source := afterHeader_source hs A node x d
  exact ⟨_, _, run, tree, source, run', tree', afterHeader_source source B node' x' d'⟩

end Sys2Proof.Machine
end

section
/-! SUPPORT. The token that takes the last entry of `NODE` while a node is still wanted (43_header_codec.md R171, 60_exceptions.md
R226). -/

namespace Sys2Proof.Machine

variable {s : State}

theorem awaitNode_of_full (stk : List Frame) (h : 513 ≤ s.nalloc.toNat) : awaitNode stk s = raiseInTree .treeOverflow s :=
  if_neg (Nat.not_lt.2 h)

/-- An internal node wants its left subtree, for which no entry is left (R171). -/
theorem execWInode_of_last (ha : s.activity = .tree) (h : s.nalloc.toNat = 512) :
    execWInode s = raiseInTree .treeOverflow (s.allocNode fun e => { e with kind := .internal, sym := 0 }) := by
  have room : s.nalloc.toNat < 513 := by omega
  have full : 513 ≤ (s.nalloc + 1).toNat := by rw [toNat_succ_of_lt room, h]
  simp only [execWInode, ha, Config.nodeCap, if_pos room]
  exact awaitNode_of_full _ full

/-- A leaf completes the nodes `ps`, and then the right subtree of `q` is wanted (R164). -/
theorem execWLeaf_returns (ha : s.activity = .tree) (h : s.nalloc.toNat < 513) (sym : Nat) {ps : List Idx} {q : Idx}
    {fs : List Frame}
    (hstk : s.scratch.stk = ps.map (fun p => { idx := p, leftDone := true }) ++ { idx := q, leftDone := false } :: fs) :
    execWLeaf sym s = awaitNode (⟨q, true⟩ :: fs) (closeNodes s.nalloc ps (s.allocLeaf (BitVec.ofNat 9 sym))) := by
  rw [execWLeaf_of_room ha h, hstk, returnSubtree_closeNodes, returnSubtree]

/-- Completing nodes writes entries of `NODE` and nothing else (R164). -/
theorem closeNodes_frame (i : Idx) (ps : List Idx) (s : State) : ∃ node, closeNodes i ps s = { s with node := node } := by
  induction ps generalizing i s with
  | nil => exact ⟨_, rfl⟩
  | cons p ps ih =>
    rw [closeNodes_cons]
    exact ih p (setChildren p (p + 1) i s)

/-- Settles O39: the test of the capacity at the end of the token finds no entry left. -/
theorem tokensRespectCapacity : Obligations.TokensRespectCapacity := by
  rintro s ⟨-, he⟩ ha hn i hi
  have last : s.nalloc + 1 = 513 := by bv_omega
  rcases hi with rfl | ⟨sym, ps, q, fs, rfl, hstk⟩
  · exact ⟨_, execWInode_of_last ha hn, by simp [he], rfl, last, rfl, rfl, rfl, rfl⟩
  · obtain ⟨node, frame⟩ := closeNodes_frame s.nalloc ps (s.allocLeaf (BitVec.ofNat 9 sym))
    have full : 513 ≤ (closeNodes s.nalloc ps (s.allocLeaf (BitVec.ofNat 9 sym))).nalloc.toNat := by
      rw [closeNodes_nalloc, allocLeaf_nalloc, last]
      decide
    rw [exec, execWLeaf_returns ha (by omega) sym hstk, awaitNode_of_full _ full, frame]
    exact ⟨_, rfl, by simp [he, State.allocLeaf], rfl, last, rfl, rfl, rfl, rfl⟩

end Sys2Proof.Machine
end

section
/-! SUPPORT. RDHDR token by token on any source (43_header_codec.md R164, R168, R170, R171): the subtrees it still wants, and how one
token changes their number or ends the operation. -/

namespace Sys2Proof.Machine

variable {s : State} {rest : Bits}

/-! ### What stands next in the source -/

theorem State.Ahead.bound {p : Bits} (h : s.Ahead p) : ∃ src, s.source = some src :=
  h.imp fun _ => And.left

theorem State.Ahead.unique {p q : Bits} (h : s.Ahead p) (h' : s.Ahead q) : p = q := by
  obtain ⟨src, hs, -, rfl⟩ := h
  obtain ⟨src', hs', -, rfl⟩ := h'
  cases hs.symm.trans hs'
  rfl

/-! ### What reading leaves alone -/

/-- Reading on from `s`: the source is no earlier and its latch as given, entries of `NODE` are written and counted, scratch
registers used, transactions recorded; nothing else changes. -/
def State.ReadsTo (eos : Bool) (s t : State) : Prop :=
  ∃ src pos trace node nalloc x, s.source = some src ∧ src.pos ≤ pos ∧
    t = { s with
      source := some { src with pos := pos, eos := eos }
      trace := trace
      node := node
      nalloc := nalloc
      scratch := x }

theorem State.ReadsTo.trans {t u : State} {e e' : Bool} (h : s.ReadsTo e t) (h' : t.ReadsTo e' u) : s.ReadsTo e' u := by
  obtain ⟨src, pos, trace, node, nalloc, x, hs, hp, rfl⟩ := h
  obtain ⟨_, pos', trace', node', nalloc', x', ⟨⟩, hp', rfl⟩ := h'
  exact ⟨src, pos', trace', node', nalloc', x', hs, hp.trans hp', rfl⟩

/-- A transfer from a source whose latch is clear, with the writes of a token. -/
theorem State.Ahead.readsTo (h : s.Ahead rest) (n : Nat) (es : List PortEvent) (node : Vector NodeEntry 513) (nalloc : Idx)
    (x : Scratch) :
    s.ReadsTo false { s.transfer n [] es with node := node, nalloc := nalloc, scratch := x } := by
  obtain ⟨src, hs, heos, -⟩ := h
  refine ⟨src, src.pos + n, s.trace ++ es, node, nalloc, x, hs, Nat.le_add_right _ _, ?_⟩
  rw [transfer_read hs, ← heos]

/-! ### Fetching a token of a source that is cut -/

/-- No token stands next: the source is at its end, or ends within the symbol of a leaf (R170). -/
def Source.Cut (src : Source) : Prop :=
  src.eos = true ∨ src.bits.drop src.pos = [] ∨ ∃ field : Bits, field.length < 9 ∧ src.bits.drop src.pos = true :: field

theorem fetchTreeToken_of_cut {src : Source} (hs : s.source = some src) (h : src.Cut) :
    ∃ u, s.ReadsTo true u ∧ fetchTreeToken s = .ended (raiseInTree .malformedTree u) := by
  by_cases noFlag : src.eos = true ∨ src.bits.length < src.pos + 1
  · rw [fetchTreeToken, srcRead_of_short hs (by decide) (by decide) noFlag]
    refine ⟨_, ?_, rfl⟩
    exact ⟨src, src.pos, _, _, _, _, hs, le_rfl, rfl⟩
  · rw [not_or, Bool.not_eq_true, Nat.not_lt] at noFlag
    obtain ⟨heos, hpos⟩ := noFlag
    obtain ⟨field, short, hp⟩ : ∃ field : Bits, field.length < 9 ∧ src.bits.drop src.pos = true :: field := by
      rcases h with h | h | h
      · simp [heos] at h
      · have := List.drop_eq_nil_iff.1 h
        omega
      · exact h
    have flag := srcRead_of_next hs (n := 1) (by decide) (by decide) heos (p := [true]) hp rfl
    have length := congrArg List.length hp
    rw [List.length_drop, List.length_cons] at length
    have symbol (t : State) (ht : t.source = some { src with pos := src.pos + 1 }) :=
      srcRead_of_short ht (n := 9) (by decide) (by decide) (.inr (by dsimp only; omega))
    have one : intOf [true] = 1 := rfl
    rw [fetchTreeToken, flag]
    simp only [one]
    rw [if_neg (by decide), symbol _ rfl]
    refine ⟨_, ?_, rfl⟩
    exact ⟨src, src.pos + 1, _, _, _, _, hs, Nat.le_succ _, rfl⟩

theorem exists_sym_of_length {field : Bits} (h : field.length = 9) : ∃ x : Sym, field = bitsOf 9 x.toNat := by
  refine ⟨BitVec.ofNat 9 (intOf field), ?_⟩
  rw [BitVec.toNat_ofNat, bitsOf_mod, ← h, bitsOf_intOf]

/-- What stands next in a source: no token, or one of the two of a tree (R95, R96). -/
theorem cut_or_token {src : Source} (hs : s.source = some src) :
    src.Cut ∨ (∃ b, s.Ahead (false :: b)) ∨ ∃ x b, s.Ahead (true :: (bitsOf 9 (x : Sym).toNat ++ b)) := by
  cases heos : src.eos with
  | true => exact .inl (.inl heos)
  | false =>
    match hp : src.bits.drop src.pos with
    | [] => exact .inl (.inr (.inl hp))
    | false :: b => exact .inr (.inl ⟨b, src, hs, heos, hp⟩)
    | true :: p =>
      by_cases short : p.length < 9
      · exact .inl (.inr (.inr ⟨p, short, hp⟩))
      · obtain ⟨x, hx⟩ := exists_sym_of_length (field := p.take 9) (by rw [List.length_take]; omega)
        exact .inr (.inr ⟨x, p.drop 9, src, hs, heos, by rw [← hx, List.take_append_drop, hp]⟩)

/-! ### The subtrees that are still to be read -/

/-- The subtree RDHDR waits for, and the right one of each node whose left one is being read (R164). -/
def wanted (stk : List Frame) : Nat := stk.countP (fun f => !f.leftDone) + 1

@[simp] theorem wanted_left (p : Idx) (stk : List Frame) : wanted (⟨p, false⟩ :: stk) = wanted stk + 1 := by simp [wanted]

@[simp] theorem wanted_right (p : Idx) (stk : List Frame) : wanted (⟨p, true⟩ :: stk) = wanted stk := by simp [wanted]

/-- The stack is nodes that the next subtree completes, and then nothing, or a node that wants its right subtree. -/
theorem stk_cases (stk : List Frame) :
    ∃ ps : List Idx, (stk = ps.map (fun p => { idx := p, leftDone := true }) ∧ wanted stk = 1) ∨
      ∃ q fs, stk = ps.map (fun p => { idx := p, leftDone := true }) ++ { idx := q, leftDone := false } :: fs ∧
        wanted stk = wanted fs + 1 := by
  induction stk with
  | nil => exact ⟨[], .inl ⟨rfl, rfl⟩⟩
  | cons f stk ih =>
    obtain ⟨p, _ | _⟩ := f
    · exact ⟨[], .inr ⟨p, stk, rfl, wanted_left p stk⟩⟩
    · obtain ⟨ps, ⟨hstk, hw⟩ | ⟨q, fs, hstk, hw⟩⟩ := ih
      · exact ⟨p :: ps, .inl ⟨by rw [hstk]; rfl, (wanted_right p stk).trans hw⟩⟩
      · exact ⟨p :: ps, .inr ⟨q, fs, by rw [hstk]; rfl, (wanted_right p stk).trans hw⟩⟩

/-- RDHDR waits for a node, with an entry for it, and `k` subtrees are still to be read. -/
structure State.Wants (k : Nat) (s : State) : Prop where
  tree   : s.activity = .tree
  room   : s.nalloc.toNat < 513
  wanted : wanted s.scratch.stk = k

/-- Everything a token can do when `k` subtrees are wanted (R164): the source ends within it; it takes the last entry and leaves
a node wanted; it opens an internal node, with two subtrees in place of one; it is a leaf, which may be the last. -/
inductive TokenEnd (s : State) (k : Nat) : Outcome → Prop where
  | cut {u : State} (frame : s.ReadsTo true u) : TokenEnd s k (raiseInTree .malformedTree u)
  | full {u : State} (hn : s.nalloc.toNat = 512) (h : (∃ b, s.Ahead (false :: b)) ∨ 2 ≤ k) :
      TokenEnd s k (raiseInTree .treeOverflow u)
  | inode {b : Bits} {u : State} (h : s.Ahead (false :: b)) (hb : u.Ahead b) (frame : s.ReadsTo false u) (hw : u.Wants (k + 1))
      (hn : u.nalloc.toNat = s.nalloc.toNat + 1) : TokenEnd s k (.next u)
  | leaf {x : Sym} {b : Bits} {k' : Nat} {u : State} (h : s.Ahead (true :: (bitsOf 9 x.toNat ++ b))) (hb : u.Ahead b)
      (hk : k = k' + 1) (frame : s.ReadsTo false u) (hw : u.Wants k') (hn : u.nalloc.toNat = s.nalloc.toNat + 1) :
      TokenEnd s k (.next u)
  | last {x : Sym} {b : Bits} {u : State} (h : s.Ahead (true :: (bitsOf 9 x.toNat ++ b))) (hk : k = 1)
      (ha : u.activity = .idle) : TokenEnd s k (.next u)

theorem tokenEnd_inode {k : Nat} {b : Bits} (hw : s.Wants k) (h : s.Ahead (false :: b)) : TokenEnd s k (takeToken s) := by
  rw [takeToken_of_tree hw.tree (fetchTreeToken_inode h), runToken]
  have tree : (s.transfer 1 [] [.srcRead 1 (some 0)]).activity = .tree := hw.tree
  by_cases last : s.nalloc.toNat = 512
  · rw [execWInode_of_last tree last]
    exact .full last (.inl ⟨b, h⟩)
  · have room := hw.room
    rw [execWInode_of_room tree (by exact (by omega : s.nalloc.toNat < 512))]
    refine .inode h (h.transfer (p := [false]) (out := []) (es := [.srcRead 1 (some 0)]) rfl) (h.readsTo _ _ _ _ _)
      ⟨hw.tree, ?_, ?_⟩ (toNat_succ_of_lt room)
    · exact (toNat_succ_of_lt room).trans_lt (by omega)
    · exact (wanted_left _ _).trans (congrArg (· + 1) hw.wanted)

theorem tokenEnd_leaf {k : Nat} {x : Sym} {b : Bits} (hw : s.Wants k) (h : s.Ahead (true :: (bitsOf 9 x.toNat ++ b))) :
    TokenEnd s k (takeToken s) := by
  have room := hw.room
  have succ := toNat_succ_of_lt room
  have wants := hw.wanted
  rw [takeToken_of_tree hw.tree (fetchTreeToken_leaf h), runToken]
  generalize hv : s.transfer 10 [] [.srcRead 1 (some 1), .srcRead 9 (some x.toNat)] = v
  have tree : v.activity = .tree := by rw [← hv]; exact hw.tree
  have nalloc : v.nalloc = s.nalloc := by rw [← hv]; rfl
  have stk : v.scratch.stk = s.scratch.stk := by rw [← hv]; rfl
  rw [← nalloc] at room succ
  obtain ⟨ps, ⟨hstk, one⟩ | ⟨q, fs, hstk, more⟩⟩ := stk_cases s.scratch.stk
  · rw [execWLeaf_of_room tree room, stk, hstk, ← List.append_nil (ps.map _), returnSubtree_closeNodes, returnSubtree]
    exact .last h (wants.symm.trans one) rfl
  · rw [execWLeaf_returns tree room x.toNat (stk.trans hstk), BitVec.ofNat_toNat, BitVec.setWidth_eq]
    obtain ⟨node, frame⟩ := closeNodes_frame v.nalloc ps (v.allocLeaf x)
    rw [frame]
    by_cases last : s.nalloc.toNat = 512
    · rw [awaitNode_of_full _ (by simp [nalloc, last])]
      exact .full last (.inr (by rw [← wants, more]; exact Nat.succ_le_succ (Nat.succ_pos _)))
    · have next : (v.nalloc + 1).toNat < 513 := by rw [succ, nalloc]; have := hw.room; omega
      rw [awaitNode_of_room _ (by exact next)]
      have ahead : v.Ahead b := hv ▸ h.transfer (p := true :: bitsOf 9 x.toNat) (by simp)
      refine .leaf h ahead (wants.symm.trans more) ?_ ⟨tree, next, wanted_right q fs⟩ (succ.trans (by rw [nalloc]))
      rw [← hv]
      exact h.readsTo _ _ _ _ _

/-- A token taken while `k` subtrees are wanted. -/
theorem takeToken_tokenEnd {k : Nat} (hw : s.Wants k) (hs : ∃ src, s.source = some src) :
    TokenEnd s k (takeToken s) := by
  obtain ⟨src, hs⟩ := hs
  rcases cut_or_token hs with cut | ⟨b, h⟩ | ⟨x, b, h⟩
  · obtain ⟨u, frame, fetch⟩ := fetchTreeToken_of_cut hs cut
    simp only [takeToken, fetchWire, hw.tree, fetch]
    exact .cut frame
  · exact tokenEnd_inode hw h
  · exact tokenEnd_leaf hw h

/-! ### Headers end to end -/

/-- The headers of trees, end to end. -/
def hdrs (Ts : List HTree) : Bits := Ts.flatMap HTree.hdr

/-- The number of nodes of all the trees. -/
def nodes (Ts : List HTree) : Nat := (Ts.map HTree.size).sum

theorem hdrs_node (l r : HTree) (Ts : List HTree) : hdrs (.node l r :: Ts) = false :: hdrs (l :: r :: Ts) := by
  simp [hdrs, HTree.hdr]

theorem hdrs_leaf (x : Sym) (Ts : List HTree) : hdrs (.leaf x :: Ts) = true :: (bitsOf 9 x.toNat ++ hdrs Ts) := rfl

theorem nodes_node (l r : HTree) (Ts : List HTree) : nodes (.node l r :: Ts) = nodes (l :: r :: Ts) + 1 := by
  simp only [nodes, List.map_cons, List.sum_cons, HTree.size]
  omega

theorem nodes_leaf (x : Sym) (Ts : List HTree) : nodes (.leaf x :: Ts) = nodes Ts + 1 := by
  simp only [nodes, List.map_cons, List.sum_cons, HTree.size]
  omega

theorem length_le_nodes (Ts : List HTree) : Ts.length ≤ nodes Ts := by
  induction Ts with
  | nil => exact Nat.zero_le _
  | cons T Ts ih =>
    have := T.size_pos
    simp only [nodes, List.map_cons, List.sum_cons, List.length_cons] at ih ⊢
    omega

theorem hdrs_eq_false_cons {Ts : List HTree} {p : Bits} (h : hdrs Ts = false :: p) :
    ∃ l r Us, Ts = .node l r :: Us ∧ p = hdrs (l :: r :: Us) := by
  match Ts with
  | [] => cases h
  | .leaf x :: Us => cases h
  | .node l r :: Us =>
    rw [hdrs_node] at h
    exact ⟨l, r, Us, rfl, (List.cons.inj h).2.symm⟩

theorem hdrs_eq_leaf_append {Ts : List HTree} {x : Sym} {p : Bits} (h : hdrs Ts = true :: (bitsOf 9 x.toNat ++ p)) :
    ∃ y Us, Ts = .leaf y :: Us ∧ p = hdrs Us := by
  match Ts with
  | [] => cases h
  | .leaf y :: Us => exact ⟨y, Us, rfl, (List.append_inj (List.cons.inj h).2 (by simp)).2.symm⟩
  | .node l r :: Us => cases h

/-! ### The loop -/

theorem State.Wants.pos {k : Nat} (h : s.Wants k) : 0 < k :=
  h.wanted ▸ Nat.succ_pos _

theorem raiseInTree_andThen (e : ErrKind) (s : State) (passes : Nat) :
    andThen (raiseInTree e s) (afterToken passes) = raiseInTree e s := rfl

/-- RDHDR without a fault has read the headers of as many trees as it wanted, and all their nodes have fitted (R168, R171). -/
theorem tokenLoop_wanted {t : State} {k passes : Nat} (hw : s.Wants k) (hs : ∃ src, s.source = some src)
    (ht : tokenLoop passes s = .next t) (hf : t.status.faulted = false) :
    ∃ Ts rest, Ts.length = k ∧ s.Ahead (hdrs Ts ++ rest) ∧ s.nalloc.toNat + nodes Ts ≤ 513 := by
  induction passes generalizing s k with
  | zero => cases ht
  | succ passes ih =>
    have token := takeToken_tokenEnd hw hs
    rw [tokenLoop_succ] at ht
    generalize takeToken s = o at token ht
    cases token with
    | cut | full =>
      rw [raiseInTree_andThen] at ht
      cases ht
      cases hf
    | inode h hb frame hw' hn =>
      rw [andThen_next, afterToken_of_tree hw'.tree] at ht
      obtain ⟨Ts, rest, hlen, hTs, fits⟩ := ih hw' hb.bound ht
      match Ts with
      | [] => cases hlen
      | [_] => exact absurd (Nat.succ.inj hlen) hw.pos.ne
      | l :: r :: Us =>
        refine ⟨.node l r :: Us, rest, by simpa using hlen, ?_, by rw [nodes_node]; omega⟩
        rwa [hdrs_node, List.cons_append, ← hb.unique hTs]
    | @leaf x _ _ _ h hb hk frame hw' hn =>
      rw [andThen_next, afterToken_of_tree hw'.tree] at ht
      obtain ⟨Ts, rest, hlen, hTs, fits⟩ := ih hw' hb.bound ht
      refine ⟨.leaf x :: Ts, rest, by rw [List.length_cons, hlen, hk], ?_, by rw [nodes_leaf]; omega⟩
      rwa [hdrs_leaf, List.cons_append, List.append_assoc, ← hb.unique hTs]
    | @last x b _ h hk =>
      exact ⟨[.leaf x], b, hk.symm, h, by rw [nodes_leaf]; exact hw.room⟩

/-- RDHDR on a source that ends within the headers it wants raises `E_MALFORMED_TREE` at the end of the source, if their nodes
fit (R170). -/
theorem tokenLoop_cut {k passes : Nat} {bits more : Bits} {Ts : List HTree} (hw : s.Wants k) (ha : s.Ahead bits)
    (hlen : Ts.length = k) (hb : hdrs Ts = bits ++ more) (hm : more ≠ []) (fits : s.nalloc.toNat + nodes Ts ≤ 513)
    (hp : 513 < passes + s.nalloc.toNat) :
    ∃ u, s.ReadsTo true u ∧ tokenLoop passes s = raiseInTree .malformedTree u := by
  induction passes generalizing s k bits Ts with
  | zero => have := hw.room; omega
  | succ passes ih =>
    have token := takeToken_tokenEnd hw ha.bound
    rw [tokenLoop_succ]
    generalize takeToken s = o at token
    cases token with
    | cut frame => exact ⟨_, frame, raiseInTree_andThen _ _ _⟩
    | full last h =>
      have enough := length_le_nodes Ts
      rcases h with ⟨b, h⟩ | h
      · rw [ha.unique h] at hb
        obtain ⟨l, r, Us, rfl, -⟩ := hdrs_eq_false_cons hb
        have := length_le_nodes (l :: r :: Us)
        rw [nodes_node] at fits
        simp only [List.length_cons] at this
        omega
      · omega
    | inode h ahead frame hw' hn =>
      rw [ha.unique h] at hb
      obtain ⟨l, r, Us, rfl, hb'⟩ := hdrs_eq_false_cons hb
      rw [nodes_node] at fits
      rw [andThen_next, afterToken_of_tree hw'.tree]
      obtain ⟨u, frame', loop⟩ := ih hw' ahead (by simpa using hlen) hb'.symm (by omega) (by omega)
      exact ⟨u, frame.trans frame', loop⟩
    | leaf h ahead hk frame hw' hn =>
      rw [ha.unique h, List.cons_append, List.append_assoc] at hb
      obtain ⟨y, Us, rfl, hb'⟩ := hdrs_eq_leaf_append hb
      rw [nodes_leaf] at fits
      rw [andThen_next, afterToken_of_tree hw'.tree]
      obtain ⟨u, frame', loop⟩ := ih hw' ahead (by rw [hk] at hlen; simpa using hlen) hb'.symm (by omega) (by omega)
      exact ⟨u, frame.trans frame', loop⟩
    | last h hk =>
      rw [ha.unique h, List.cons_append, List.append_assoc] at hb
      obtain ⟨y, Us, rfl, hb'⟩ := hdrs_eq_leaf_append hb
      rw [hk, List.length_cons, Nat.succ.injEq, List.length_eq_zero_iff] at hlen
      rw [hlen] at hb'
      exact absurd (List.append_eq_nil_iff.1 hb').2 hm

/-! ### RDHDR -/

theorem wants_startTree (s : State) : (startTree s).Wants 1 where
  tree := rfl
  room := by simp
  wanted := rfl

/-- What RDHDR reads without a fault is the header of a tree that fits (R168). -/
theorem ahead_of_execRdhdr {t : State} {src : Source} (hr : s.status.faulted = false) (hs : s.source = some src)
    (ht : execRdhdr s = .next t) (hf : t.status.faulted = false) :
    ∃ (T : HTree) (rest : Bits), T.size ≤ 513 ∧ s.Ahead (T.hdr ++ rest) := by
  rw [execRdhdr, unlessFaulted_ready hr] at ht
  obtain ⟨Ts, rest, hlen, ahead, fits⟩ := tokenLoop_wanted (wants_startTree s) ⟨src, hs⟩ ht hf
  obtain ⟨T, rfl⟩ := List.length_eq_one_iff.1 hlen
  have whole : hdrs [T] = T.hdr := List.append_nil _
  exact ⟨T, rest, by simpa [nodes] using fits, whole ▸ ahead⟩

/-- Settles O35: the source began with the header of a tree, which RDHDR read, and WRHDR writes its header. -/
theorem wrhdrRepeatsReadHeader : Obligations.WrhdrRepeatsReadHeader := by
  intro s t src snk hr hs hk hc ht hf
  obtain ⟨T, rest, hT, ahead⟩ := ahead_of_execRdhdr hr hs ht hf
  obtain ⟨node, x, d, run, tree⟩ := execRdhdr_tree hr hT ahead
  cases run.symm.trans ht
  have sink : (s.afterHeader T node x d).sink = some snk := (afterHeader_sink T node x d s).trans hk
  refine ⟨T.hdr.length, _, afterHeader_source hs T node x d, execWrhdr_transfer hr rfl tree ⟨snk, sink, hc⟩, ?_⟩
  obtain ⟨src', hs', -, hp⟩ := ahead
  cases hs.symm.trans hs'
  rw [hp, List.take_left]
  exact transfer_sink (n := 0) (es := T.writes) sink

/-- Settles O31: the header that the source cuts is the one RDHDR wants. -/
theorem cutHeaderIsMalformed : Obligations.CutHeaderIsMalformed := by
  rintro s src T ⟨hr, he⟩ hs heos hT ⟨more, hmore⟩ hne
  have missing : more ≠ [] := by
    rintro rfl
    exact hne (by simpa using hmore)
  have one : hdrs [T] = src.bits.drop src.pos ++ more := by rw [hmore]; exact List.append_nil _
  have fits : (startTree s).nalloc.toNat + nodes [T] ≤ 513 := by simpa [nodes] using hT
  obtain ⟨u, frame, loop⟩ := tokenLoop_cut (passes := Config.nodeCap.succ) (wants_startTree s) ⟨src, hs, heos, rfl⟩ rfl one
    missing fits (by simp)
  obtain ⟨src', pos, trace, node, nalloc, x, hs', hpos, rfl⟩ := frame
  cases hs.symm.trans hs'
  have run : execRdhdr s = _ := (unlessFaulted_ready hr _).trans loop
  refine ⟨_, pos, run, ?_, rfl, rfl, rfl, rfl, rfl, rfl, rfl, rfl, hpos⟩
  simp [he]

end Sys2Proof.Machine
end

section
/-! SUPPORT. ENCODE's two ends (44_payload_encoder.md R180 to R185): after the sentinel's code, and at the first byte without a code. -/

namespace Sys2Proof.Machine

/-- Settles O41: by `execEncode_codes`, an induction over the bytes of the rewound source. -/
theorem encodeWritesCodes : Obligations.EncodeWritesCodes := by
  intro s src snk hr hv hs hk hc codes
  exact execEncode_codes hr hv hs hk hc codes

/-- Settles O42: the codes before the byte are written as in O41; with no fault recorded, `raise` records its own. -/
theorem encodeFaultsWithoutCode : Obligations.EncodeFaultsWithoutCode := by
  rintro s src snk pre post v ⟨hr, he⟩ hv hs hk hc split codes none
  obtain ⟨x, d, encoded⟩ := execEncode_noCode hr hv hs hk hc split codes none
  rw [he, Option.getD_none, ← List.append_assoc] at encoded
  exact ⟨x, d, encoded⟩

end Sys2Proof.Machine
end

section
/-! SUPPORT. What COMPRESS writes, read as what DECOMPRESS takes (46_control.md R196): each byte's code is the path of a leaf of the
tree in the header, and decoding that leaf gives the byte back. -/

namespace Sys2Proof.Machine

/-! ### Bytes as bits -/

theorem bitsOfBytes_cons (b : BitVec 8) (bytes : List (BitVec 8)) :
    bitsOfBytes (b :: bytes) = bitsOf 8 b.toNat ++ bitsOfBytes bytes := rfl

/-- The bytes read from packed bytes are those bytes (R61, R67). -/
theorem wholeBytes_bitsOfBytes (bytes : List (BitVec 8)) : wholeBytes (bitsOfBytes bytes) = bytes.map BitVec.toNat := by
  induction bytes with
  | nil => rfl
  | cons b bytes ih =>
    rw [bitsOfBytes_cons, wholeBytes_append (bitsOf_length 8 b.toNat), intOf_bitsOf, Nat.mod_eq_of_lt b.isLt, ih,
      List.map_cons]

theorem count_map_toNat_le {bytes : List (BitVec 8)} {n : Nat} (h : ∀ b, bytes.count b ≤ n) {k : Nat} (hk : k < 256) :
    (bytes.map BitVec.toNat).count k ≤ n := by
  have byte : (BitVec.ofNat 8 k).toNat = k := by rw [BitVec.toNat_ofNat]; exact Nat.mod_eq_of_lt hk
  have count := List.count_map_of_injective bytes BitVec.toNat BitVec.toNat_injective (BitVec.ofNat 8 k)
  rw [byte] at count
  exact count ▸ h _

/-! ### The leaves that the codes of bytes lead to -/

/-- A built tree fits into `NODE` (R137, R8). -/
theorem State.HoldsBuilt.size_le {s : State} {T : HTree} (h : s.HoldsBuilt T) : T.size ≤ 513 := by
  have few := List.subperm_of_subset (h.nodup.map BitVec.toNat_injective) (l₂ := List.range 257) fun k hk => by
    obtain ⟨x, hx, rfl⟩ := List.mem_map.1 hk
    exact List.mem_range.2 (Nat.lt_succ_of_le (h.syms_le x hx))
  have length : T.syms.length ≤ 257 := by simpa using few.length_le
  have size := T.size_eq_syms
  omega

theorem State.HoldsBuilt.eq_node {s : State} {T : HTree} (h : s.HoldsBuilt T) : ∃ l r, T = .node l r := by
  cases T with
  | leaf x => exact absurd h.three_le (by simp [HTree.size])
  | node l r => exact ⟨l, r, rfl⟩

/-- The bits a symbol of the tree is encoded with are the path of a leaf of that symbol (R150, R180). -/
theorem State.HoldsCodes.mem_codes {s t : State} {T : HTree} (h : t.HoldsCodes T) (hT : s.HoldsBuilt T) {x : Sym}
    (hx : x ∈ T.syms) : (x, codeBits (t.codeAt x.toNat)) ∈ T.codes [] := by
  rw [← T.codes_fst []] at hx
  obtain ⟨c, hc, rfl⟩ := List.mem_map.1 hx
  rw [h.present c hc, codeBits_codeOf (hT.length_of_mem_codes hc).2]
  exact hc

/-- The leaf of a byte, with the bits that ENCODE writes for it (R101, R180). -/
def State.leafOf (t : State) (b : BitVec 8) : Sym × Bits := (b.setWidth 9, codeBits (t.codeAt b.toNat))

theorem toNat_setWidth_byte (b : BitVec 8) : (b.setWidth 9).toNat = b.toNat :=
  BitVec.toNat_setWidth_of_le (by decide)

theorem leafOf_fst_ne_sentinel (t : State) (b : BitVec 8) : (t.leafOf b).1 ≠ 256 := by
  intro h
  have byte : b.toNat = 256 := (toNat_setWidth_byte b).symm.trans (congrArg BitVec.toNat h)
  omega

theorem pathBits_leafOf (t : State) (bytes : List (BitVec 8)) :
    pathBits (bytes.map t.leafOf) = t.payload (bytes.map BitVec.toNat) := by
  simp only [pathBits, State.payload, List.flatMap_map, State.leafOf]

theorem symbolBits_leafOf (t : State) (bytes : List (BitVec 8)) : symbolBits (bytes.map t.leafOf) = bitsOfBytes bytes := by
  simp only [symbolBits, bitsOfBytes, List.flatMap_map, State.leafOf, toNat_setWidth_byte]

theorem State.Coded.leafOf_mem {s t : State} {src : Source} {T : HTree} (h : s.Coded src T t) {b : BitVec 8}
    (hb : b.toNat ∈ src.bytes) : t.leafOf b ∈ T.codes [] := by
  obtain ⟨x, hx, heq⟩ := List.mem_map.1 ((h.leaves b.toNat b.isLt).2 (.inl hb))
  have sym : x = b.setWidth 9 := BitVec.eq_of_toNat_eq (heq.trans (toNat_setWidth_byte b).symm)
  rw [State.leafOf, ← sym, ← heq]
  exact h.codes.mem_codes h.built hx

/-! ### The round trip -/

/-- COMPRESS of packed bytes whose counts fit (R201, R245). -/
theorem execCompress_bytes {s : State} {bytes : List (BitVec 8)} (hr : s.ready)
    (hs : s.source = some { bits := bitsOfBytes bytes, pos := 0, eos := false, rescan := none })
    (hk : s.sink = some { out := [], closed := false }) (fits : ∀ b, bytes.count b ≤ 2 ^ s.cntW - 1) :
    ∃ t T, execCompress s = .next t ∧ t.ready ∧ t.HoldsBuilt T ∧ (∀ b ∈ bytes, t.leafOf b ∈ T.codes []) ∧
      (256, codeBits (t.codeAt 256)) ∈ T.codes [] ∧
      t.sink = some
        { out := bitsOf 32 0xFACE8201 ++ T.hdr ++ pathBits (bytes.map t.leafOf) ++ codeBits (t.codeAt 256)
          closed := false } := by
  obtain ⟨hr, he⟩ := hr
  generalize hsrc : ({ bits := bitsOfBytes bytes, pos := 0, eos := false, rescan := none } : Source) = src at hs
  have read : src.bytes = bytes.map BitVec.toNat := by rw [← hsrc]; exact wholeBytes_bitsOfBytes bytes
  have again : src.rewound = src := by rw [← hsrc]; rfl
  obtain ⟨u, T, prepared, run⟩ := execCompress_prepared hr hs hk rfl fun k hk => read ▸ count_map_toNat_le fits hk
  obtain ⟨t, ht, coded, err, status, -, sink⟩ := prepared.encode hr rfl fun b hb => .inl (again ▸ hb)
  rw [again, read, ← pathBits_leafOf] at sink
  exact ⟨t, T, run.trans ht, ⟨by rw [status]; exact hr, err.trans he⟩, coded.built,
    fun b hb => coded.leafOf_mem (read ▸ List.mem_map_of_mem hb), coded.codes.mem_codes coded.built coded.built.sentinel, sink⟩

/-- Settles O52: DECOMPRESS on the closed stream takes the leaves of the bytes one by one, and stops at the sentinel, before the pad
bits. -/
theorem roundTrip : Obligations.RoundTrip := by
  intro s bytes pad hr hs hk fits
  obtain ⟨t, T, run, ready, built, leaves, sentinel, sink⟩ := execCompress_bytes hr hs hk fits
  obtain ⟨l, r, rfl⟩ := built.eq_node
  generalize hout : bitsOf 32 0xFACE8201 ++ (HTree.node l r).hdr ++ pathBits (bytes.map t.leafOf) ++
    codeBits (t.codeAt 256) = out at sink
  generalize hpads : bitsOf ((8 - out.length % 8) % 8) pad.toNat = pads
  have close : sinkClose pad t = .next { t with sink := some { out := out ++ pads, closed := true } } :=
    sinkClose_eq_next.2 ⟨_, sink, rfl, by rw [hpads]⟩
  have whole : (out ++ pads).length % 8 = 0 := by
    rw [← hpads, List.length_append, bitsOf_length]
    omega
  have taken : ∀ m ∈ bytes.map t.leafOf, m ∈ (HTree.node l r).codes [] ∧ m.1 ≠ 256 := by
    intro m hm
    obtain ⟨b, hb, rfl⟩ := List.mem_map.1 hm
    exact ⟨leaves b hb, leafOf_fst_ne_sentinel t b⟩
  obtain ⟨w, decompressed, ready', -, -, -, back, -⟩ := decompressReadsStream
    { t with
      source := some { bits := out ++ pads, pos := 0, eos := false, rescan := none }
      sink := some { out := [], closed := false } }
    _ _ l r (bytes.map t.leafOf) (codeBits (t.codeAt 256)) pads ready rfl rfl rfl rfl built.size_le taken sentinel
    (by rw [hout]; rfl)
  rw [symbolBits_leafOf] at back
  exact ⟨t, _, out ++ pads, _, w, run, ready, close, rfl, whole, rfl, decompressed, ready', back⟩

end Sys2Proof.Machine
end

section
/-! SUPPORT. DECODE's faults (45_payload_decoder.md R192, R195): a tree that is one leaf, and a source that ends before the sentinel,
between two codes or inside one. -/

namespace Sys2Proof.Machine

variable {s : State} {passes : Nat}

/-! ### A tree that is one leaf -/

/-- A lone leaf is refused before any read (R192). -/
theorem execDecode_leaf (hr : s.status.faulted = false) (hv : s.status.treeValid = true) {e : NodeEntry}
    (he : s.readNode s.root = some e) (hk : e.kind = .leaf) : execDecode s = .next (raise .degenerateTree s) := by
  simp only [execDecode, unlessFaulted_ready hr, hv, requireFlags_true, he, hk]

/-- With no fault recorded, `raise` records its own (R230). -/
theorem raise_of_no_fault (e : ErrKind) (he : s.err = none) : raise e s = s.withFault e :=
  (raiseRecordsFirstFault e s).1 he

/-- Settles O45: DECODE looks at `NODE[ROOT]` first. -/
theorem decodeRefusesLoneLeaf : Obligations.DecodeRefusesLoneLeaf := by
  rintro s e ⟨hr, herr⟩ hv he hk
  rw [exec, execDecode_leaf hr hv he hk, raise_of_no_fault _ herr]

/-! ### The end of the source -/

/-- The state after a `SrcRead(1)` without data: the latch is set (R61). -/
def State.exhaustBits (s : State) : State :=
  { s with source := s.source.map fun src => { src with eos := true }, trace := s.trace ++ [.srcRead 1 none] }

theorem decodeLoop_of_short {src : Source} (hs : s.source = some src)
    (hb : src.eos = true ∨ src.bits.length < src.pos + 1) :
    decodeLoop (passes + 1) s = .next (raise .malformedPayload s.exhaustBits) := by
  rw [decodeLoop, srcRead_of_short hs (by decide) (by decide) hb, State.exhaustBits, hs, Option.map_some]

/-- With no bit left DECODE raises `E_MALFORMED_PAYLOAD` (R195). -/
theorem decodeLoop_of_no_bit (ha : s.Ahead []) :
    decodeLoop (passes + 1) s = .next (raise .malformedPayload s.exhaustBits) := by
  obtain ⟨src, hs, -, hp⟩ := ha
  exact decodeLoop_of_short hs (.inr (Nat.lt_succ_of_le (List.drop_eq_nil_iff.1 hp)))

/-! ### Inside a code -/

/-- Only a node has paths with an edge in them. -/
theorem eq_node_of_mem_codes {T : HTree} {x : Sym} {p : Bits} (h : (x, p) ∈ T.codes []) (hp : p ≠ []) :
    ∃ l r, T = .node l r := by
  cases T with
  | leaf y =>
    cases List.mem_singleton.1 h
    exact absurd rfl hp
  | node l r => exact ⟨l, r, rfl⟩

/-- A bit that leads to an internal node moves the cursor there (R191). -/
theorem decodeLoop_descend {l r l' r' : HTree} {is : List Nat} {b : Bool} {rest : Bits}
    (h : s.Spans s.cur (.node l r) is) (hU : (if b then r else l) = .node l' r') (ha : s.Ahead (b :: rest)) :
    ∃ i us, (s.transfer 1 [] [.srcRead 1 (some b.toNat)]).Spans i (.node l' r') us ∧ decodeLoop (passes + 1) s =
      decodeLoop passes ((s.transfer 1 [] [.srcRead 1 (some b.toNat)]).moveCursor i .descending) := by
  cases h with
  | @node _ here _ _ ls rs he hk hl hr =>
    obtain ⟨us, child⟩ : ∃ us, s.Spans (childOf here b.toNat) (if b then r else l) us := by
      cases b with
      | false => exact ⟨ls, hl⟩
      | true => exact ⟨rs, hr⟩
    rw [hU] at child
    refine ⟨_, us, child.transfer, (decodeLoop_succ he ha).trans ?_⟩
    cases child with
    | node hce hck _ _ => simp only [enterNode, transfer_readNode, hce, hck]

/-- DECODE on the first bits of a path that end before its leaf: it goes down them and finds no more (R191, R195). -/
theorem decodeLoop_cut {l r : HTree} {is : List Nat} (h : s.Spans s.cur (.node l r) is) {x : Sym} {p q : Bits}
    (hp : (x, p) ∈ (HTree.node l r).codes []) (hq : q <+: p) (hne : q ≠ p) (ha : s.Ahead q) :
    ∃ c, decodeLoop (q.length + (passes + 1)) s = .next (raise .malformedPayload
      ((s.transfer q.length [] (bitReads q)).moveCursor c (if q = [] then s.status.dstate else .descending)).exhaustBits) := by
  induction q generalizing s l r is p with
  | nil =>
    refine ⟨s.cur, ?_⟩
    have nothing : s.transfer 0 [] (bitReads []) = s := transfer_zero_nil s
    rw [List.length_nil, nothing, Nat.zero_add, decodeLoop_of_no_bit ha, if_pos rfl]
    rfl
  | cons b q ih =>
    obtain ⟨b', p', rfl, hp'⟩ := mem_codes_node hp
    obtain ⟨rfl, hq'⟩ := List.cons_prefix_cons.1 hq
    have hne' : q ≠ p' := fun heq => hne (heq ▸ rfl)
    have edge : p' ≠ [] := fun heq => hne' (by rw [heq] at hq' ⊢; exact List.prefix_nil.1 hq')
    obtain ⟨l', r', hU⟩ := eq_node_of_mem_codes hp' edge
    rw [hU] at hp'
    have length : (b :: q).length + (passes + 1) = q.length + (passes + 1) + 1 := by rw [List.length_cons]; omega
    obtain ⟨i, us, child, down⟩ := decodeLoop_descend (passes := q.length + (passes + 1)) h hU ha
    have reads : (s.transfer 1 [] [.srcRead 1 (some b.toNat)]).transfer q.length [] (bitReads q) =
        s.transfer (b :: q).length [] (bitReads (b :: q)) := by
      rw [transfer_transfer, Nat.add_comm 1]
      rfl
    have ahead : (s.transfer 1 [] [.srcRead 1 (some b.toNat)]).Ahead q := ha.transfer (p := [b]) rfl
    generalize s.transfer 1 [] [.srcRead 1 (some b.toNat)] = t at child down reads ahead
    obtain ⟨c, loop⟩ := ih (s := t.moveCursor i .descending) (child.congr fun _ _ => rfl) hp' hq' hne' ahead
    have descends : (if q = [] then (t.moveCursor i .descending).status.dstate else .descending) = DState.descending :=
      ite_self _
    refine ⟨c, ?_⟩
    rw [length, down, loop, descends, if_neg (List.cons_ne_nil b q), ← reads]
    rfl

/-- DECODE on paths of the tree and then the first bits of one writes the symbols of the whole paths and faults (R195, R232). -/
theorem execDecode_cut {l r : HTree} {ms : List (Sym × Bits)} {x : Sym} {p q : Bits} (hr : s.status.faulted = false)
    (hv : s.status.treeValid = true) (hT : s.tree = some (.node l r)) (ho : s.SinkOpen)
    (hms : ∀ m ∈ ms, m ∈ (HTree.node l r).codes [] ∧ m.1 ≠ 256) (hp : (x, p) ∈ (HTree.node l r).codes [])
    (hq : q <+: p) (hne : q ≠ p) (ha : s.Ahead (pathBits ms ++ q)) :
    ∃ c, execDecode s = .next (raise .malformedPayload
      ((s.transfer (pathBits ms ++ q).length (symbolBits ms) (symbolEvents ms ++ bitReads q)).moveCursor c
        (if q = [] then .atRoot else .descending)).exhaustBits) := by
  obtain ⟨is, spans, -⟩ := spans_of_subtree hT
  obtain ⟨passes, hpasses⟩ : ∃ passes, s.passes = (pathBits ms).length + (q.length + (passes + 1)) := by
    have lt := length_lt_passes ha
    rw [List.length_append] at lt
    exact ⟨s.passes - (pathBits ms).length - q.length - 1, by omega⟩
  have cut : (s.transfer (pathBits ms).length (symbolBits ms) (symbolEvents ms)).Ahead q := ha.transfer rfl
  obtain ⟨c, loop⟩ := decodeLoop_cut (passes := passes)
    (s := (s.transfer (pathBits ms).length (symbolBits ms) (symbolEvents ms)).cursorToRoot)
    (spans.congr fun _ _ => rfl) hp hq hne cut
  have both := transfer_transfer (pathBits ms).length q.length (symbolBits ms) [] (symbolEvents ms) (bitReads q) s
  rw [List.append_nil, ← List.length_append] at both
  refine ⟨c, ?_⟩
  rw [execDecode_internal hr hv spans, hpasses, decodeLoop_symbols spans hms ha ho, loop, ← both]
  rfl

/-- Settles O46: the symbols before the cut are written, and then the source ends at the root or below it. -/
theorem cutPayloadIsMalformed : Obligations.CutPayloadIsMalformed := by
  rintro s src snk l r ms x p q ⟨hr, herr⟩ hv hT hs heos hk hc hms hp hq hne hbits
  obtain ⟨c, run⟩ := execDecode_cut hr hv hT ⟨snk, hk, hc⟩ hms hp hq hne ⟨src, hs, heos, hbits⟩
  refine ⟨c, ?_⟩
  rw [exec, run, raise_of_no_fault _ (by exact herr), transfer_of_bound hs hk, ← List.append_assoc]
  rfl

/-! ### Every source -/

/-- DECODE's two ends from a ready state: the sentinel, or one of its faults (R194, R195, R192). -/
def DecodeEnds (t : State) : Prop :=
  (t.ready ∧ t.status.dstate = .terminated) ∨
    (t.status.faulted = true ∧ (t.err = some .malformedPayload ∨ t.err = some .degenerateTree))

theorem decodeEnds_raise (hr : s.ready) {e : ErrKind} (he : e = .malformedPayload ∨ e = .degenerateTree) :
    DecodeEnds (raise e s) := by
  refine .inr ⟨rfl, ?_⟩
  rw [raise_of_no_fault e hr.2]
  exact he.imp (congrArg some) (congrArg some)

theorem decodeLoop_ends (hr : s.ready) (passes : Nat) : AllNext DecodeEnds (decodeLoop passes s) := by
  induction passes generalizing s with
  | zero => exact allNext_fault _
  | succ passes ih =>
    unfold decodeLoop
    cases hread : srcRead 1 s with
    | refused r => exact allNext_refused r
    | noData t =>
      obtain ⟨src, -, -, -, -, rfl⟩ := srcRead_eq_noData hread
      exact allNext_next.2 (decodeEnds_raise hr (.inl rfl))
    | data b t =>
      obtain ⟨src, -, -, -, -, -, -, rfl⟩ := srcRead_eq_data hread
      dsimp only
      split
      · exact allNext_fault _
      · split
        · exact allNext_fault _
        · split
          · exact ih hr
          · split
            · exact allNext_next.2 (.inl ⟨hr, rfl⟩)
            · refine AllNext.andThen (P := State.ready) (fun u hu => ?_) fun u hu => ih hu
              obtain ⟨snk, -, -, -, -, rfl⟩ := sinkWrite_eq_next.1 hu
              exact hr

/-- Settles O47: a lone leaf is refused, from an internal root the loop's bound is above the bits that are left. -/
theorem decodeAlwaysEnds : Obligations.DecodeAlwaysEnds := by
  rintro s src snk hr hv hok hs hk hc
  obtain ⟨T, is, spans, -⟩ := treeOk_iff.1 hok
  cases T with
  | leaf x =>
    cases spans with
    | leaf he hkind => exact ⟨_, execDecode_leaf hr.1 hv he hkind, decodeEnds_raise hr (.inr rfl)⟩
  | node l r =>
    have run : exec .decode s = decodeLoop s.passes s.cursorToRoot := execDecode_internal hr.1 hv spans
    have root : s.cursorToRoot.Spans s.root (.node l r) is := spans.congr fun _ _ => rfl
    have completes : Completes (decodeLoop s.passes s.cursorToRoot) := by
      by_cases inside : src.pos ≤ src.bits.length
      · exact decodeLoop_completes (readsWithin_passes hs inside) ⟨snk, hk, hc⟩ ⟨⟨l, r, is, root⟩, l, r, is, root⟩
      · have passes : s.passes = src.bits.length + 1 := by simp only [State.passes, hs]
        rw [passes, decodeLoop_of_short (s := s.cursorToRoot) hs (.inr (by omega))]
        exact completes_next _
    obtain ⟨t, ht⟩ := completes
    exact ⟨t, run.trans ht, decodeLoop_ends (s := s.cursorToRoot) hr s.passes t ht⟩

end Sys2Proof.Machine
end

section
/-! SUPPORT. Block control (46_control.md): CLEAR, the reserved codes, a faulted block, and DECOMPRESS on a stream that does not begin
with the magic (43_header_codec.md R163). -/

namespace Sys2Proof.Machine

variable {s : State}

/-! ### RDMAGIC without the magic -/

/-- 32 bits other than the magic are no token (R106). -/
theorem decode_wire_notMagic {tok : Bits} (hlen : tok.length = 32) (hne : tok ≠ bitsOf 32 0xFACE8201) :
    decode (.wire tok) = .error (.notMagic tok) := by
  have long : tok ≠ [false] := fun h => by simp [h] at hlen
  change decodeWire tok = _
  unfold decodeWire
  rw [if_neg long, if_pos hlen]
  exact if_neg hne

/-- RDMAGIC consumes 32 bits that are not the magic (R163). -/
theorem execRdmagic_notMagic {src : Source} {p rest : Bits} (hr : s.ready) (hs : s.source = some src)
    (heos : src.eos = false) (hp : src.bits.drop src.pos = p ++ rest) (hlen : p.length = 32)
    (hne : p ≠ bitsOf 32 0xFACE8201) :
    execRdmagic s = .next (({ s with
      source := some { src with pos := src.pos + 32 }
      trace := s.trace ++ [.srcRead 32 (some (intOf p))] } : State).withFault .illegalHeader) := by
  have read := srcRead_of_next (s := startMagic s) hs (n := 32) (by decide) (by decide) heos hp hlen
  have bits : bitsOf 32 (intOf p) = p := by rw [← hlen, bitsOf_intOf]
  simp only [execRdmagic, unlessFaulted_ready hr.1, takeToken, fetchWire_startMagic, fetchMagic, Config.magicW, read, bits,
    decode_wire_notMagic hlen hne]
  exact congrArg Host.Outcome.next (raise_of_no_fault _ (by exact hr.2))

/-- RDMAGIC consumes nothing where 32 bits are not left (R163, R61). -/
theorem execRdmagic_short {src : Source} (hr : s.ready) (hs : s.source = some src)
    (hb : src.eos = true ∨ src.bits.length < src.pos + 32) :
    execRdmagic s = .next (({ s with
      source := some { src with eos := true }, trace := s.trace ++ [.srcRead 32 none] } : State).withFault
        .illegalHeader) := by
  have read := srcRead_of_short (s := startMagic s) hs (n := 32) (by decide) (by decide) hb
  simp only [execRdmagic, unlessFaulted_ready hr.1, takeToken, fetchWire_startMagic, fetchMagic, Config.magicW, read]
  exact congrArg Host.Outcome.next (raise_of_no_fault _ (by exact hr.2))

/-- Without the magic next in the source, RDMAGIC does one read and raises `E_ILLEGAL_HEADER` (R163, R222). -/
theorem execRdmagic_wrongMagic {src : Source} (hr : s.ready) (hs : s.source = some src)
    (hw : src.eos = true ∨ (src.bits.drop src.pos).take 32 ≠ bitsOf 32 0xFACE8201) :
    ∃ src' got, execRdmagic s = .next (({ s with
      source := some src', trace := s.trace ++ [.srcRead 32 got] } : State).withFault .illegalHeader) := by
  by_cases short : src.eos = true ∨ src.bits.length < src.pos + 32
  · exact ⟨_, _, execRdmagic_short hr hs short⟩
  · obtain ⟨heos, enough⟩ := not_or.1 short
    have hlen : ((src.bits.drop src.pos).take 32).length = 32 := by
      rw [List.length_take, List.length_drop]
      omega
    exact ⟨_, _, execRdmagic_notMagic hr hs (Bool.eq_false_of_not_eq_true heos) (List.take_append_drop 32 _).symm hlen
      (hw.resolve_left heos)⟩

/-- Settles O51: RDMAGIC is the first step of DECOMPRESS, and its fault ends the macro. -/
theorem wrongMagicEndsDecompress : Obligations.WrongMagicEndsDecompress := by
  intro s src hr hs hw
  obtain ⟨src', got, run⟩ := execRdmagic_wrongMagic (s := { s with seq := [.rdhdr, .decode] }) hr hs hw
  have ends := runSteps_of_faulted (m := .rdmagic) (ms := [.rdhdr, .decode]) (s := s) run rfl
  exact ⟨_, (unlessFaulted_ready hr.1 _).trans ends, rfl, rfl, rfl, rfl, rfl, rfl, rfl, rfl, rfl, got, rfl⟩

/-! ### Codes written to `CMD` -/

theorem runCommand_reserved {op : BitVec 4} (h : 12 ≤ op.toNat) (s : State) : runCommand op s = execReserved s := by
  simp only [runCommand, decode, decodeCmd_reserved h]

/-- Settles O6: the raised fault is recorded unless there is one; nothing ran that it could end. -/
theorem reservedCommandFaults : Obligations.ReservedCommandFaults := by
  intro s op rest ha hq hh hop
  rw [step_of_atRest ha hq, runHost_cons hh, runAction, runCommand_reserved hop, execReserved]
  cases hf : s.status.faulted with
  | true => exact unlessFaulted_faulted (s := { s with host := rest }) hf _
  | false =>
    rw [unlessFaulted_ready (s := { s with host := rest }) hf, raise_eq, ← ha, ← hq]
    rfl

/-- While faulted every code but that of CLEAR is ignored, a reserved one too (R203, R206). -/
theorem runCommand_of_faulted {op : BitVec 4} (hf : s.status.faulted = true) (hop : op ≠ 0) :
    runCommand op s = .next s := by
  rcases Nat.lt_or_ge op.toNat 12 with command | reserved
  · obtain ⟨i, hd, hi, henc⟩ := decodeCmd_command command
    have other : i ≠ .clear := by
      rintro rfl
      exact hop (Encoded.cmd.inj henc).symm
    rw [runCommand_of_decode hd, exec_of_faulted hf hi other]
  · rw [runCommand_reserved reserved, execReserved, unlessFaulted_faulted hf]

/-- Settles O11: the commands by their instructions, the step by the code the host writes. -/
theorem faultedBlockIgnoresCommands : Obligations.FaultedBlockIgnoresCommands := by
  intro s hf
  refine ⟨fun i hi hne => exec_of_faulted hf hi hne, fun op rest ha hq hh hop => ?_⟩
  rw [step_of_atRest ha hq, runHost_cons hh, runAction]
  exact runCommand_of_faulted (s := { s with host := rest }) hf hop

/-- Settles O10: CLEAR is the return from a fault of R236, which tests nothing. -/
theorem clearReturnsFromFault : Obligations.ClearReturnsFromFault := fun _ => rfl

end Sys2Proof.Machine
end

section
/-! SUPPORT. Faults that a command raises in its first transaction or before it (60_exceptions.md R222, R229): a prerequisite that does
not hold, and a stream that does not begin with the magic. -/

namespace Sys2Proof.Machine

/-- Settles O14: the test of the flags comes first, and with no fault recorded `raise` records its own. -/
theorem missingFlagRaisesSequence : Obligations.MissingFlagRaisesSequence := by
  rintro s ⟨hr, he⟩
  rw [← raise_of_no_fault .sequence he]
  exact ⟨execBuild_missing hr, fun h => execGencode_missing hr (Bool.and_eq_false_iff.2 h), execWrhdr_missing hr,
    execEncode_missing hr, execDecode_missing hr⟩

/-- 32 bits are the magic when they read as its number (R12). -/
theorem eq_magic_of_intOf {p : Bits} (hlen : p.length = 32) (h : intOf p = 0xFACE8201) : p = bitsOf 32 0xFACE8201 := by
  rw [← h, ← hlen, bitsOf_intOf]

theorem intOf_magic : intOf (bitsOf 32 0xFACE8201) = 0xFACE8201 :=
  (intOf_bitsOf _ _).trans (by decide)

/-- Settles O29: the 32 bits are there and the magic, are there and others, or are not there. -/
theorem rdmagicChecksMagic : Obligations.RdmagicChecksMagic := by
  intro s src hr hs
  refine ⟨fun p rest heos hp hlen => ⟨fun right => ?_, fun wrong => ?_⟩, execRdmagic_short hr hs⟩
  · have ahead : s.Ahead (bitsOf 32 0xFACE8201 ++ rest) := ⟨src, hs, heos, eq_magic_of_intOf hlen right ▸ hp⟩
    rw [exec, execRdmagic_transfer hr.1 ahead, transfer_read hs]
  · refine execRdmagic_notMagic hr hs heos hp hlen fun h => wrong ?_
    rw [h, intOf_magic]

end Sys2Proof.Machine
end

section
/-! SUPPORT. COUNT on an input with more than `2^CNT_W - 1` of a byte (40_frequency_counter.md R123, 60_exceptions.md R225): the bytes
before the one that overflows are counted, and the loop ends at that one. -/

namespace Sys2Proof.Machine

variable {s : State} {passes b v : Nat} {bytes post more : List Nat}

/-! ### The loop -/

/-- A byte whose counter has room is counted (R120). -/
theorem countLoop_byte (h : s.BytesAhead (b :: more)) (room : s.freqAt b < 2 ^ s.cntW - 1) :
    countLoop (passes + 1) s =
      countLoop passes ((s.transfer 8 [] [.srcRead 8 (some b)]).setFreq b (s.freqAt b + 1)) := by
  rw [countLoop, srcRead_of_byte h]
  exact if_pos room

/-- A byte whose counter is at the limit is consumed and raises `E_COUNT_OVERFLOW` (R123). -/
theorem countLoop_overflow (h : s.BytesAhead (v :: post)) (limit : s.freqAt v = 2 ^ s.cntW - 1) :
    countLoop (passes + 1) s = .next (raise .countOverflow (s.transfer 8 [] [.srcRead 8 (some v)])) := by
  rw [countLoop, srcRead_of_byte h]
  exact if_neg (Nat.not_lt.2 limit.ge)

theorem freqAt_setFreq_add_count {k : Nat} (hk : k < 257) (s : State) :
    (s.setFreq b (s.freqAt b + 1)).freqAt k + bytes.count k = s.freqAt k + (b :: bytes).count k := by
  rw [freqAt_setFreq, List.count_cons]
  by_cases hb : b = k
  · subst hb
    rw [if_pos ⟨rfl, hk⟩, if_pos (beq_self_eq_true b)]
    omega
  · rw [if_neg (fun h => hb h.1), if_neg (by simpa using hb), Nat.add_zero]

theorem transfer_withFreq (n : Nat) (out : Bits) (es : List PortEvent) (f : Vector Nat 257) (s : State) :
    (s.withFreq f).transfer n out es = (s.transfer n out es).withFreq f := rfl

/-- COUNT's loop counts the bytes whose counters have room, and goes on with what follows them (R120). -/
theorem countLoop_prefix (h : s.BytesAhead (bytes ++ more)) (fits : ∀ k < 257, s.freqAt k + bytes.count k ≤ 2 ^ s.cntW - 1)
    (lt : ∀ b ∈ bytes, b < 257) :
    ∃ f u, u = (s.transfer (8 * bytes.length) [] (byteReads bytes)).withFreq f ∧ u.BytesAhead more ∧
      countLoop (bytes.length + passes) s = countLoop passes u ∧ ∀ k < 257, u.freqAt k = s.freqAt k + bytes.count k := by
  induction bytes generalizing s with
  | nil =>
    have nothing : s.transfer (8 * 0) [] (byteReads []) = s := transfer_zero_nil s
    rw [List.length_nil, nothing, Nat.zero_add]
    exact ⟨s.freq, s, rfl, h, rfl, fun k _ => rfl⟩
  | cons b bytes ih =>
    have room : s.freqAt b < 2 ^ s.cntW - 1 := by
      have := fits b (lt b List.mem_cons_self)
      rw [List.count_cons_self] at this
      omega
    have counted {k : Nat} (hk : k < 257) := freqAt_setFreq_add_count (b := b) (bytes := bytes) hk
      (s.transfer 8 [] [.srcRead 8 (some b)])
    obtain ⟨f, u, hu, next, loop, counts⟩ := ih
      (s := (s.transfer 8 [] [.srcRead 8 (some b)]).setFreq b (s.freqAt b + 1)) (h.transfer [] [.srcRead 8 (some b)])
      (fun k hk => (counted hk).trans_le (fits k hk)) fun c hc => lt c (List.mem_cons_of_mem _ hc)
    rw [transfer_setFreq, withFreq_setFreq, transfer_transfer, Nat.add_comm 8, ← Nat.mul_succ] at hu
    refine ⟨f, u, hu, next, ?_, fun k hk => (counts k hk).trans (counted hk)⟩
    rw [List.length_cons, Nat.add_right_comm, countLoop_byte h room, loop]

/-! ### COUNT -/

/-- COUNT of an input that overflows a counter (R123). -/
theorem execCount_overflow {src : Source} {pre : List Nat} (hr : s.ready) (hs : s.source = some src)
    (split : src.bytes = pre ++ v :: post) (fits : ∀ k, pre.count k ≤ 2 ^ s.cntW - 1)
    (limit : pre.count v = 2 ^ s.cntW - 1) :
    ∃ freq' x d, execCount s = .next { s with
        freq := freq'
        status := { s.status with
          freqValid := false, treeValid := false, treeBuilt := false, codeValid := false, faulted := true }
        err := some .countOverflow
        activity := .idle
        seq := []
        source := some { src with pos := src.pos + 8 * (pre.length + 1) }
        trace := s.trace ++ byteReads (pre ++ [v])
        scratch := x
        draws := d } ∧
      ∀ k < 257, freq'[k]? = some (pre.count k) := by
  have ahead : s.invalidateFreq.zeroFreq.BytesAhead (pre ++ v :: post) := ⟨src, hs, split⟩
  have lt (b : Nat) (hb : b ∈ pre ++ v :: post) : b < 256 := by
    rw [← split] at hb
    exact wholeBytes_lt _ b hb
  have zero (k : Nat) : s.invalidateFreq.zeroFreq.freqAt k + pre.count k = pre.count k := by
    rw [freqAt_zeroFreq, Nat.zero_add]
  obtain ⟨passes, hpasses⟩ : ∃ passes, s.passes = pre.length + (passes + 1) := by
    have long : (pre ++ v :: post).length < s.passes := ahead.length_lt_passes
    rw [List.length_append] at long
    exact ⟨s.passes - pre.length - 1, by omega⟩
  obtain ⟨f, u, hu, next, loop, counts⟩ := countLoop_prefix (passes := passes + 1) ahead
    (fun k _ => (zero k).trans_le (fits k)) fun b hb => Nat.lt_succ_of_lt (lt b (List.mem_append_left _ hb))
  have full : u.freqAt v = 2 ^ u.cntW - 1 := by
    rw [counts v (Nat.lt_succ_of_lt (lt v (by simp))), zero, limit, hu]
    rfl
  have read : u.transfer 8 [] [.srcRead 8 (some v)] =
      (s.invalidateFreq.zeroFreq.transfer (8 * (pre.length + 1)) [] (byteReads (pre ++ [v]))).withFreq f := by
    rw [hu, transfer_withFreq, transfer_transfer, byteReads, byteReads, List.map_append, Nat.mul_succ]
    rfl
  refine ⟨f, freeScratchOf s.cntW s.draws, s.draws + 1, ?_, fun k hk => ?_⟩
  · rw [execCount, unlessFaulted_ready hr.1, hpasses, loop, countLoop_overflow next full, releaseScratch_next,
      read, transfer_read (s := s.invalidateFreq.zeroFreq) hs, raise_of_no_fault _ (by exact hr.2)]
    rfl
  · have here : f[k]? = u.freq[k]? := by rw [hu]; rfl
    rw [here, getElem?_freq hk, counts k hk, zero]

/-- Settles O18: by `execCount_overflow`. -/
theorem countOverflowFaults : Obligations.CountOverflowFaults := by
  intro s src pre post v hr hs split fits limit
  exact execCount_overflow hr hs split fits limit

end Sys2Proof.Machine
end

section
/-! SUPPORT. RDHDR on the tokens of a tree that does not fit into `NODE` (43_header_codec.md R164, R171, 60_exceptions.md R226): each
token takes an entry, and after the one that takes the last the next node is not read. -/

namespace Sys2Proof.Machine

variable {s : State} {rest tok : Bits}

/-! ### The tokens of several trees -/

/-- A tree has a token for each node (R95, R96). -/
theorem HTree.length_tokens (T : HTree) : T.tokens.length = T.size := by
  induction T with
  | leaf x => rfl
  | node l r hl hr =>
    rw [HTree.tokens, List.length_cons, List.length_append, hl, hr, HTree.size]
    omega

/-- The tokens of trees, one tree after the other (R95, R96). -/
def tokensOf (Ts : List HTree) : List Bits := Ts.flatMap HTree.tokens

theorem tokensOf_node (l r : HTree) (Ts : List HTree) :
    tokensOf (.node l r :: Ts) = [false] :: tokensOf (l :: r :: Ts) := by
  simp [tokensOf, HTree.tokens]

theorem tokensOf_leaf (x : Sym) (Ts : List HTree) :
    tokensOf (.leaf x :: Ts) = (true :: bitsOf 9 x.toNat) :: tokensOf Ts := rfl

/-- The token of a leaf is read as its flag and its symbol (R96). -/
theorem tokenReads_leaf (x : Sym) :
    tokenReads (true :: bitsOf 9 x.toNat) = [.srcRead 1 (some 1), .srcRead 9 (some x.toNat)] := by
  rw [tokenReads, intOf_bitsOf, Nat.mod_eq_of_lt x.isLt]

/-- Tokens of a tree are read, an entry is counted for each, and `NODE` and the scratch registers are written. -/
def State.afterTokens (toks : List Bits) (node : Vector NodeEntry 513) (x : Scratch) (s : State) : State :=
  { s.transfer toks.flatten.length [] (toks.flatMap tokenReads) with
    node := node, nalloc := s.nalloc + BitVec.ofNat 10 toks.length, scratch := x }

theorem afterTokens_cons (tok : Bits) (toks : List Bits) (node node' : Vector NodeEntry 513) (x x' : Scratch) (s : State) :
    (s.afterTokens [tok] node x).afterTokens toks node' x' = s.afterTokens (tok :: toks) node' x' := by
  have ports : (s.transfer [tok].flatten.length [] ([tok].flatMap tokenReads)).transfer toks.flatten.length []
      (toks.flatMap tokenReads) = s.transfer (tok :: toks).flatten.length [] ((tok :: toks).flatMap tokenReads) := by
    rw [transfer_transfer, ← List.length_append, ← List.flatten_append, ← List.flatMap_append, List.singleton_append]
    rfl
  have count : s.nalloc + BitVec.ofNat 10 1 + BitVec.ofNat 10 toks.length =
      s.nalloc + BitVec.ofNat 10 (tok :: toks).length := by
    rw [BitVec.add_assoc, ← BitVec.ofNat_add, Nat.add_comm, List.length_cons]
  conv_rhs => rw [State.afterTokens, ← count, ← ports]
  rfl

theorem State.Ahead.afterTokens (h : s.Ahead (tok ++ rest)) (node : Vector NodeEntry 513) (x : Scratch) :
    (s.afterTokens [tok] node x).Ahead rest :=
  h.transfer (out := []) (es := [tok].flatMap tokenReads) (by simp)

theorem afterTokens_nalloc (room : s.nalloc.toNat < 513) (tok : Bits) (node : Vector NodeEntry 513) (x : Scratch) :
    (s.afterTokens [tok] node x).nalloc.toNat = s.nalloc.toNat + 1 :=
  toNat_succ_of_lt room

theorem afterTokens_sink (toks : List Bits) (node : Vector NodeEntry 513) (x : Scratch) (s : State) :
    (s.afterTokens toks node x).sink = s.sink :=
  transfer_read_sink (n := toks.flatten.length) (es := toks.flatMap tokenReads)

theorem afterTokens_source {src : Source} (hs : s.source = some src) (toks : List Bits) (node : Vector NodeEntry 513)
    (x : Scratch) : (s.afterTokens toks node x).source = some { src with pos := src.pos + toks.flatten.length } :=
  transfer_source (out := []) (es := toks.flatMap tokenReads) hs

/-! ### One token -/

/-- The token of an internal node calls for its left subtree (R164). -/
theorem takeToken_inode (ha : s.activity = .tree) (room : s.nalloc.toNat < 513) (h : s.Ahead ([false] ++ rest)) :
    ∃ node, takeToken s = awaitNode (⟨s.nalloc, false⟩ :: s.scratch.stk) (s.afterTokens [[false]] node s.scratch) := by
  rw [takeToken_of_tree ha (fetchTreeToken_inode h), runToken]
  have tree : (s.transfer 1 [] [.srcRead 1 (some 0)]).activity = .tree := ha
  simp only [execWInode, tree]
  exact ⟨_, if_pos room⟩

/-- The token of a leaf, with two subtrees still wanted, returns to a node whose right subtree is to come (R164). -/
theorem takeToken_leaf (ha : s.activity = .tree) (room : s.nalloc.toNat < 513) {x : Sym}
    (h : s.Ahead (true :: bitsOf 9 x.toNat ++ rest)) (more : 2 ≤ wanted s.scratch.stk) :
    ∃ stk node y, wanted stk + 1 = wanted s.scratch.stk ∧
      takeToken s = awaitNode stk (s.afterTokens [true :: bitsOf 9 x.toNat] node y) := by
  obtain ⟨ps, ⟨-, one⟩ | ⟨q, fs, hstk, hw⟩⟩ := stk_cases s.scratch.stk
  · omega
  · rw [takeToken_of_tree ha (fetchTreeToken_leaf h), runToken, execWLeaf_returns (s := s.transfer _ _ _) ha room x.toNat hstk]
    obtain ⟨node, frame⟩ := closeNodes_frame (s.transfer 10 [] [.srcRead 1 (some 1), .srcRead 9 (some x.toNat)]).nalloc ps
      ((s.transfer 10 [] [.srcRead 1 (some 1), .srcRead 9 (some x.toNat)]).allocLeaf (BitVec.ofNat 9 x.toNat))
    rw [frame]
    refine ⟨⟨q, true⟩ :: fs, node, { s.scratch with sym := BitVec.ofNat 9 x.toNat }, by rw [hw, wanted_right], ?_⟩
    rw [State.afterTokens, List.flatMap_singleton, tokenReads_leaf, List.flatten_singleton, List.length_cons, bitsOf_length]
    rfl

/-- RDHDR takes the first token of the trees that it wants, if another node is wanted after it (R164). -/
theorem takeToken_wanted {Ts : List HTree} (hw : s.Wants Ts.length) (two : 2 ≤ nodes Ts) :
    ∃ tok Us, tokensOf Ts = tok :: tokensOf Us ∧ nodes Ts = nodes Us + 1 ∧ ∀ rest, s.Ahead (tok ++ rest) →
      ∃ stk node x, wanted stk = Us.length ∧ takeToken s = awaitNode stk (s.afterTokens [tok] node x) := by
  obtain ⟨tree, room, wants⟩ := hw
  match Ts with
  | [] => exact absurd two (by simp [nodes])
  | .node l r :: Us =>
    refine ⟨_, _, tokensOf_node l r Us, nodes_node l r Us, fun rest h => ?_⟩
    obtain ⟨node, token⟩ := takeToken_inode tree room h
    exact ⟨_, node, _, (wanted_left _ _).trans (congrArg (· + 1) wants), token⟩
  | .leaf x :: Us =>
    have more : 0 < Us.length := List.length_pos_iff.2 fun h => by
      rw [nodes_leaf, h] at two
      exact absurd two (by simp [nodes])
    refine ⟨_, _, tokensOf_leaf x Us, nodes_leaf x Us, fun rest h => ?_⟩
    rw [List.length_cons] at wants
    obtain ⟨stk, node, y, hstk, token⟩ := takeToken_leaf tree room h (by omega)
    exact ⟨stk, node, y, by omega, token⟩

/-! ### The loop -/

/-- RDHDR on trees with more nodes than entries are left takes a token for each entry and raises `E_TREE_OVERFLOW` (R171). -/
theorem tokenLoop_full {n passes : Nat} {Ts : List HTree} (hw : s.Wants Ts.length) (hn : s.nalloc.toNat + (n + 1) = 513)
    (more : n + 1 < nodes Ts) (ha : s.Ahead (((tokensOf Ts).take (n + 1)).flatten ++ rest)) :
    ∃ node x, tokenLoop (n + 1 + passes) s =
      raiseInTree .treeOverflow (s.afterTokens ((tokensOf Ts).take (n + 1)) node x) := by
  induction n generalizing s Ts with
  | zero =>
    obtain ⟨tok, Us, htoks, -, token⟩ := takeToken_wanted hw more
    rw [htoks, Nat.zero_add, List.take_succ_cons, List.take_zero] at ha ⊢
    obtain ⟨stk, node, x, -, token⟩ := token rest (by simpa using ha)
    have full : 513 ≤ (s.afterTokens [tok] node x).nalloc.toNat := (afterTokens_nalloc hw.room tok node x).ge.trans' hn.ge
    rw [Nat.add_comm, tokenLoop_succ, token, awaitNode_of_full _ full, raiseInTree_andThen]
    exact ⟨node, x, rfl⟩
  | succ n ih =>
    obtain ⟨tok, Us, htoks, hnodes, token⟩ := takeToken_wanted hw (by omega)
    rw [htoks, List.take_succ_cons, List.flatten_cons, List.append_assoc] at ha
    obtain ⟨stk, node, x, wants, token⟩ := token _ ha
    have succ := afterTokens_nalloc hw.room tok node
    have room : (s.afterTokens [tok] node x).nalloc.toNat < 513 := by rw [succ]; omega
    have next : tokenLoop (n + 1 + 1 + passes) s =
        tokenLoop (n + 1 + passes) (s.afterTokens [tok] node { x with stk := stk }) := by
      rw [Nat.add_right_comm, tokenLoop_succ, token, awaitNode_of_room _ room, andThen_next]
      exact afterToken_of_tree (s := s.afterTokens [tok] node { x with stk := stk }) hw.tree _
    obtain ⟨node', x', loop⟩ := ih (s := s.afterTokens [tok] node { x with stk := stk }) (Ts := Us)
      ⟨hw.tree, room, wants⟩ (by rw [succ]; omega) (by omega) (ha.afterTokens node _)
    refine ⟨node', x', ?_⟩
    rw [next, loop, afterTokens_cons, htoks, List.take_succ_cons]

/-- Settles O32: RDHDR wants one tree, and its first 513 tokens take every entry. -/
theorem headerCapacity : Obligations.HeaderCapacity := by
  rintro s src T rest ⟨hr, he⟩ hs heos hT hp
  have one : tokensOf [T] = T.tokens := List.append_nil _
  have many : 512 + 1 < nodes [T] := by simpa [nodes] using hT
  obtain ⟨node, x, loop⟩ := tokenLoop_full (n := 512) (passes := 1) (Ts := [T]) (wants_startTree s) (by simp) many
    ⟨src, hs, heos, one.symm ▸ hp⟩
  rw [one] at loop
  have all : (T.tokens.take 513).length = 513 := by
    rw [List.length_take, T.length_tokens]
    omega
  have nalloc : ((startTree s).afterTokens (T.tokens.take 513) node x).nalloc = 513 := by
    rw [State.afterTokens, all]
    rfl
  have run : execRdhdr s = _ := (unlessFaulted_ready hr _).trans loop
  refine ⟨_, run, ?_, nalloc, rfl, rfl, ?_, rfl, rfl, rfl, rfl, ?_, rfl⟩
  · exact (raise_err _ _).trans (congrArg (fun e => some (e.getD .treeOverflow)) he)
  · exact afterTokens_sink (T.tokens.take 513) node x (startTree s)
  · exact afterTokens_source (s := startTree s) hs _ node x

end Sys2Proof.Machine
end

section
/-! SUPPORT. A stream that COMPRESS made, cut anywhere (46_control.md R201, R202, 60_exceptions.md R235): the magic, the header of the tree
and the payload of paths stand in it one after the other, and DECOMPRESS faults in the one that the cut is in. -/

namespace Sys2Proof.Machine

variable {s t : State} {T l r : HTree} {ms : List (Sym × Bits)} {p q : Bits}

/-! ### The parts of a stream -/

/-- An internal node is one bit of a header and a leaf ten (R99). -/
theorem HTree.length_hdr (T : HTree) : T.hdr.length + 1 = 11 * T.syms.length := by
  induction T with
  | leaf x => simp [HTree.hdr, HTree.syms]
  | node l r hl hr =>
    rw [HTree.length_hdr_node, HTree.syms, List.length_append]
    omega

/-- A payload cut before its end is whole paths and then the first bits of one (R190, R195). -/
theorem exists_of_cut_paths (hp : p <+: pathBits ms ++ q) (hne : p ≠ pathBits ms ++ q) :
    ∃ pre path q', pre ⊆ ms ∧ (path = q ∨ ∃ x, (x, path) ∈ ms) ∧ p = pathBits pre ++ q' ∧ q' <+: path ∧ q' ≠ path := by
  induction ms generalizing p with
  | nil => exact ⟨[], q, p, List.nil_subset _, .inl rfl, rfl, hp, hne⟩
  | cons m ms ih =>
    have path : pathBits (m :: ms) ++ q = m.2 ++ (pathBits ms ++ q) := by
      rw [← List.append_assoc]
      rfl
    rw [path] at hp hne
    by_cases whole : m.2 <+: p
    · obtain ⟨p', rfl⟩ := whole
      obtain ⟨pre, path, q', sub, hpath, rfl, hq, hne'⟩ := ih ((List.prefix_append_right_inj _).1 hp)
        fun h => hne (congrArg (m.2 ++ ·) h)
      refine ⟨m :: pre, path, q', List.cons_subset_cons m sub,
        hpath.imp_right (Exists.imp fun x => List.mem_cons_of_mem m), ?_, hq, hne'⟩
      rw [← List.append_assoc]
      rfl
    · have short : p <+: m.2 := (List.prefix_or_prefix_of_prefix hp (List.prefix_append _ _)).resolve_right whole
      exact ⟨[], m.2, p, List.nil_subset _, .inr ⟨m.1, List.mem_cons_self⟩, rfl, short,
        fun h => whole (h ▸ List.prefix_rfl)⟩

theorem take_bitsOf_append (m v n : Nat) (p : Bits) : (bitsOf m v ++ p).take (m + n) = bitsOf m v ++ p.take n := by
  have := List.take_length_add_append (l₁ := bitsOf m v) (l₂ := p) n
  rwa [bitsOf_length] at this

theorem take_ne_of_lt {n : Nat} (h : n < p.length) : p.take n ≠ p := by
  intro heq
  have := congrArg List.length heq
  rw [List.length_take] at this
  omega

/-! ### What a COMPRESS without a fault has written -/

/-- The counts of an input fit, or there is a first byte that overflows its counter (R123). -/
theorem exists_overflow {n : Nat} {bytes : List Nat} (h : ¬ ∀ k, bytes.count k ≤ n) :
    ∃ pre v post, bytes = pre ++ v :: post ∧ (∀ k, pre.count k ≤ n) ∧ pre.count v = n := by
  induction bytes using List.reverseRecOn with
  | nil => exact absurd (fun k => Nat.zero_le n) h
  | append_singleton bytes v ih =>
    by_cases fits : ∀ k, bytes.count k ≤ n
    · refine ⟨bytes, v, [], rfl, fits, le_antisymm (fits v) (not_lt.1 fun room => h fun k => ?_)⟩
      rw [List.count_append, List.count_singleton]
      have := fits k
      split
      next hk => rw [beq_iff_eq] at hk; subst hk; omega
      next => omega
    · obtain ⟨pre, u, post, rfl, hpre, hu⟩ := ih fits
      exact ⟨pre, u, post ++ [v], by simp, hpre, hu⟩

/-- COMPRESS without a fault has counted an input whose counts fit (R123, R201). -/
theorem counts_fit_of_execCompress {src : Source} (hr : s.ready) (hs : s.source = some src) (ht : execCompress s = .next t)
    (hf : t.status.faulted = false) (k : Nat) : src.bytes.count k ≤ 2 ^ s.cntW - 1 := by
  by_contra exceeds
  obtain ⟨pre, v, post, split, fits, limit⟩ := exists_overflow fun h => exceeds (h k)
  obtain ⟨f, x, d, count, -⟩ := execCount_overflow
    (s := { s with seq := [.build, .gencode, .wrmagic, .wrhdr, .encode] }) hr hs split fits limit
  have run : execCompress s = _ := (unlessFaulted_ready hr.1 _).trans (runSteps_of_faulted count rfl)
  cases run.symm.trans ht
  cases hf

/-- COMPRESS without a fault has found a code for every byte it read again (R182, R201). -/
theorem State.Prepared.hasLeaf_of_encode {src : Source} {snk : Sink} (h : s.Prepared src (some snk) T t)
    (hr : s.status.faulted = false) (hc : snk.closed = false) {u : State} (hu : runSteps [.encode] t = .next u)
    (hf : u.status.faulted = false) : ∀ b ∈ src.rewound.bytes, hasLeaf src.bytes b := by
  by_contra missing
  obtain ⟨pre, v, post, split, leaves, none⟩ := exists_first_not missing
  obtain ⟨w, hw, -, -, status, -⟩ := h.encode_noCode hr hc split leaves none
  cases hw.symm.trans hu
  rw [status] at hf
  cases hf

theorem exists_bytes_of_lt {bytes : List Nat} (h : ∀ b ∈ bytes, b < 256) :
    ∃ bs : List (BitVec 8), bytes = bs.map BitVec.toNat := by
  refine ⟨bytes.map (BitVec.ofNat 8), ?_⟩
  rw [List.map_map]
  exact (List.map_id bytes).symm.trans (List.map_congr_left fun b hb =>
    ((BitVec.toNat_ofNat b 8).trans (Nat.mod_eq_of_lt (h b hb))).symm)

/-- The codes of bytes that have leaves are paths of the tree, the filler's too (R133, R180). -/
theorem State.Coded.leafOf_mem_of_hasLeaf {src : Source} (h : s.Coded src T t) {b : BitVec 8}
    (hl : hasLeaf src.bytes b.toNat) : t.leafOf b ∈ T.codes [] := by
  obtain ⟨x, hx, heq⟩ := List.mem_map.1 ((h.leaves b.toNat b.isLt).2 hl)
  have sym : x = b.setWidth 9 := BitVec.eq_of_toNat_eq (heq.trans (toNat_setWidth_byte b).symm)
  rw [State.leafOf, ← sym, ← heq]
  exact h.codes.mem_codes h.built hx

/-- The stream of a tree and its leaves (R196, R202): the magic, the header, the path of each leaf, and the sentinel's. -/
structure IsStream (l r : HTree) (ms : List (Sym × Bits)) (q z : Bits) : Prop where
  size     : (HTree.node l r).size ≤ 513
  leaves   : ∀ m ∈ ms, m ∈ (HTree.node l r).codes [] ∧ m.1 ≠ 256
  sentinel : (256, q) ∈ (HTree.node l r).codes []
  bits     : z = bitsOf 32 0xFACE8201 ++ ((HTree.node l r).hdr ++ (pathBits ms ++ q))

/-- A stream cut in the header. -/
theorem IsStream.take_header {z : Bits} (h : IsStream l r ms q z) {n : Nat} (hn : n ≤ (HTree.node l r).hdr.length) :
    z.take (32 + n) = bitsOf 32 0xFACE8201 ++ (HTree.node l r).hdr.take n := by
  rw [h.bits, take_bitsOf_append, List.take_append_of_le_length hn]

/-- A stream cut in the payload. -/
theorem IsStream.take_payload {z : Bits} (h : IsStream l r ms q z) (n : Nat) :
    z.take (32 + ((HTree.node l r).hdr.length + n)) =
      bitsOf 32 0xFACE8201 ++ ((HTree.node l r).hdr ++ (pathBits ms ++ q).take n) := by
  rw [h.bits, take_bitsOf_append, List.take_length_add_append]

/-- COMPRESS without a fault writes the stream of the tree it leaves (R201). -/
theorem isStream_of_execCompress {z : Bits} (hr : s.ready) (hk : s.sink = some { out := [], closed := false })
    (ht : execCompress s = .next t) (hr' : t.ready) (hT : t.tree = some T)
    (hz : t.sink = some { out := z, closed := false }) : ∃ l r ms q, T = .node l r ∧ IsStream l r ms q z := by
  cases hs : s.source with
  | none =>
    rw [execCompress_unbound hs hr.1] at ht
    cases ht
  | some src =>
    obtain ⟨u, T', prepared, run⟩ := execCompress_prepared hr.1 hs hk rfl
      fun k _ => counts_fit_of_execCompress hr hs ht hr'.1 k
    rw [run] at ht
    have leaves := prepared.hasLeaf_of_encode hr.1 rfl ht hr'.1
    obtain ⟨w, hw, coded, -, -, -, sink⟩ := prepared.encode hr.1 rfl leaves
    cases hw.symm.trans ht
    cases coded.built.tree.symm.trans hT
    cases hz.symm.trans sink
    obtain ⟨l, r, rfl⟩ := coded.built.eq_node
    obtain ⟨bytes, hbytes⟩ := exists_bytes_of_lt (bytes := src.rewound.bytes) (wholeBytes_lt _)
    refine ⟨l, r, bytes.map t.leafOf, codeBits (t.codeAt 256), rfl, coded.built.size_le, ?_,
      coded.codes.mem_codes coded.built coded.built.sentinel, ?_⟩
    · intro m hm
      obtain ⟨b, hb, rfl⟩ := List.mem_map.1 hm
      exact ⟨coded.leafOf_mem_of_hasLeaf (leaves _ (hbytes ▸ List.mem_map_of_mem hb)), leafOf_fst_ne_sentinel t b⟩
    · rw [pathBits_leafOf, ← hbytes]
      simp only [List.nil_append, List.append_assoc]

/-! ### DECOMPRESS on a cut stream -/

/-- DECOMPRESS on the magic goes on with RDHDR (R202). -/
theorem execDecompress_magic {rest : Bits} (hr : s.status.faulted = false) (ha : s.Ahead (bitsOf 32 0xFACE8201 ++ rest)) :
    ∃ u : State, u.status = s.status ∧ u.err = s.err ∧ u.Ahead rest ∧
      execDecompress s = runSteps [.rdhdr, .decode] u := by
  have magic := execRdmagic_transfer (s := { s with seq := [.rdhdr, .decode] }) hr ha
  have next := ha.transfer (out := []) (es := [.srcRead 32 (some 0xFACE8201)]) (bitsOf_length _ _)
  refine ⟨_, ?_, ?_, ?_, (unlessFaulted_ready hr _).trans (runSteps_cons .rdmagic _ s magic hr)⟩
  · rfl
  · rfl
  · exact next

/-- DECOMPRESS on a stream cut in the header (R170, R235). -/
theorem execDecompress_cut_header (hr : s.ready) (hT : T.size ≤ 513) (hp : p <+: T.hdr) (hne : p ≠ T.hdr)
    (ha : s.Ahead (bitsOf 32 0xFACE8201 ++ p)) :
    ∃ w, execDecompress s = .next w ∧ w.err = some .malformedTree := by
  obtain ⟨u, status, err, ⟨src, hs, heos, hbits⟩, run⟩ := execDecompress_magic hr.1 ha
  rw [← hbits] at hp hne
  obtain ⟨t, pos, cut, herr, hst, -⟩ := cutHeaderIsMalformed { u with seq := [.decode] } src T
    ⟨(congrArg Status.faulted status).trans hr.1, err.trans hr.2⟩ hs heos hT hp hne
  exact ⟨t, run.trans (runSteps_of_faulted (m := .rdhdr) (s := u) cut (by rw [hst])), herr⟩

/-- DECOMPRESS on a stream cut in the payload (R195, R235). -/
theorem execDecompress_cut_payload {z : Bits} (hz : IsStream l r ms q z) (hr : s.ready) (hk : s.SinkOpen)
    (hp : p <+: pathBits ms ++ q) (hne : p ≠ pathBits ms ++ q)
    (ha : s.Ahead (bitsOf 32 0xFACE8201 ++ ((HTree.node l r).hdr ++ p))) :
    ∃ w, execDecompress s = .next w ∧ w.err = some .malformedPayload := by
  obtain ⟨pre, path, q', sub, hpath, rfl, hq, hne'⟩ := exists_of_cut_paths hp hne
  obtain ⟨x, leaf⟩ : ∃ x, (x, path) ∈ (HTree.node l r).codes [] := by
    obtain rfl | ⟨x, hx⟩ := hpath
    · exact ⟨256, hz.sentinel⟩
    · exact ⟨x, (hz.leaves _ hx).1⟩
  obtain ⟨node, x', d, u, hu, tree, payload, run⟩ := execDecompress_header hr.1 hz.size ha
  have sink : u.sink = s.sink := by rw [hu, afterHeader_sink, transfer_read_sink]
  have ready : u.status.faulted = false := by rw [hu]; exact hr.1
  have valid : u.status.treeValid = true := by rw [hu]; rfl
  have tree' : ({ u with seq := [] } : State).tree = some (.node l r) := by
    rw [← tree]
    exact tree_congr rfl rfl rfl
  have opened : u.SinkOpen := by rw [State.SinkOpen, sink]; exact hk
  obtain ⟨c, cut⟩ := execDecode_cut (s := { u with seq := [] }) ready valid tree' opened (fun m hm => hz.leaves m (sub hm))
    leaf hq hne' payload
  refine ⟨_, run.trans (runSteps_of_faulted (m := .decode) cut rfl), (raise_err _ _).trans ?_⟩
  have err : u.err = none := by rw [hu]; exact hr.2
  exact congrArg (fun e => some (e.getD .malformedPayload)) err

/-- DECOMPRESS on the whole stream (R202). -/
theorem execDecompress_stream {z rest : Bits} {snk : Sink} (hz : IsStream l r ms q z) (hr : s.ready)
    (hk : s.sink = some snk) (hc : snk.closed = false) (ha : s.Ahead (z ++ rest)) :
    ∃ w, execDecompress s = .next w ∧ w.err = none := by
  obtain ⟨src, hs, heos, hbits⟩ := ha
  rw [hz.bits] at hbits
  obtain ⟨w, run, ready, -⟩ := decompressReadsStream s src snk l r ms q rest hr hs heos hk hc hz.size hz.leaves hz.sentinel
    (by simpa only [List.append_assoc] using hbits)
  exact ⟨w, run, ready.2⟩

/-- Settles O53: the cut is in the magic, in the header, in the payload, or behind the stream. -/
theorem cutStreamFaultsByPlace : Obligations.CutStreamFaultsByPlace := by
  intro s t v T z k hr hk ht hr' hT hz hrv hsv hkv
  obtain ⟨l, r, ms, q, rfl, stream⟩ := isStream_of_execCompress hr hk ht hr' hT hz
  refine ⟨Nat.eq_sub_of_add_eq (HTree.length_hdr _), ?_⟩
  have ahead : v.Ahead (z.take k) := ⟨_, hsv, rfl, rfl⟩
  by_cases magic : k < 32
  · obtain ⟨w, run, err, -⟩ := wrongMagicEndsDecompress v _ hrv hsv (.inr fun h => by
      have := congrArg List.length h
      simp only [List.drop_zero, List.length_take, bitsOf_length] at this
      omega)
    exact ⟨w, run, by rw [err, if_pos magic]⟩
  obtain ⟨j, rfl⟩ := Nat.exists_eq_add_of_le (not_lt.1 magic)
  by_cases header : 32 + j < 32 + (HTree.node l r).hdr.length
  · have lt : j < (HTree.node l r).hdr.length := Nat.lt_of_add_lt_add_left header
    rw [stream.take_header lt.le] at ahead
    obtain ⟨w, run, err⟩ := execDecompress_cut_header hrv stream.size (List.take_prefix _ _) (take_ne_of_lt lt) ahead
    exact ⟨w, run, by rw [err, if_neg magic, if_pos header]⟩
  obtain ⟨i, rfl⟩ := Nat.exists_eq_add_of_le (Nat.le_of_add_le_add_left (not_lt.1 header))
  by_cases payload : 32 + ((HTree.node l r).hdr.length + i) < z.length
  · rw [stream.take_payload] at ahead
    have lt : i < (pathBits ms ++ q).length := by
      rw [stream.bits, List.length_append, List.length_append, bitsOf_length] at payload
      omega
    obtain ⟨w, run, err⟩ := execDecompress_cut_payload stream hrv ⟨_, hkv, rfl⟩ (List.take_prefix _ _)
      (take_ne_of_lt lt) ahead
    exact ⟨w, run, by rw [err, if_neg magic, if_neg header, if_pos payload]⟩
  · rw [List.take_of_length_le (not_lt.1 payload), ← List.append_nil z] at ahead
    obtain ⟨w, run, err⟩ := execDecompress_stream stream hrv hkv rfl ahead
    exact ⟨w, run, by rw [err, if_neg magic, if_neg header, if_neg payload]⟩

end Sys2Proof.Machine
end
